-- ==== Sys2Proof/Word.lean ====
section
/-! DEFINITION. The two word types of SM-CORE: the byte of the buffers and of the cryptography (00_scope.md R17) and the
32-bit word of every register and bus access (10_state.md R32, 20_memory.md R85). -/

namespace Sys2Proof

/-- A byte is 8 bits, bit 0 the least significant (R17). -/
abbrev Byte := BitVec 8

/-- A register, command or bus word: 32 bits (R32, R110). -/
abbrev Word := BitVec 32

end Sys2Proof
end

