-- ==== Sys2Proof/Syntax.lean ====
section
/-! DEFINITION. What the machine is given: the ten commands (30_encoding.md R112, one constructor per row of
spec/opcode_table.json), the inputs of the outside world (host bus accesses and the reset input, 00_scope.md R7), and the
names of the registers of the window (10_state.md R32). -/

namespace Sys2Proof

/-- The commands of R112. A command word carries no operand field (R111), so no constructor has an argument. -/
inductive Instr
  | pad
  | deriveIv
  | encData
  | decData
  | computeMac
  | verifyMac
  | prepare
  | unwrap
  | encBlock
  | decBlock
  deriving DecidableEq, Repr

/-- The width of a bus access. Only the 32-bit width is accepted (20_memory.md R84). -/
inductive Width
  | byte
  | half
  | word
  deriving DecidableEq, Repr

/-- One input from outside: a bus access of the host at a 12-bit offset of the window (R80, R82), or the reset input
(70_reset_and_hazards.md R310). A narrow write is a bus error whatever its data, so the data of a write is always written
here as a word. -/
inductive Input
  | read (width : Width) (off : BitVec 12)
  | write (width : Width) (off : BitVec 12) (value : Word)
  | reset
  deriving DecidableEq, Repr

/-- The registers and buffer words of the window (R32). -/
inductive Reg
  | id
  | ctrl
  | status
  | cmd
  | kcfg
  | sscLo
  | sscHi
  | hdr
  | inLen
  | opt
  | outLen
  | sw
  | result
  | tag0
  | tag1
  | kenc (j : Fin 8)
  | kmac (j : Fin 8)
  | inBuf (j : Fin 64)
  | outBuf (j : Fin 64)
  deriving DecidableEq, Repr

end Sys2Proof
end

