-- ==== Sys2Proof/WellFormed.lean ====
section
/-! DEFINITION. Which command words are legal (30_encoding.md R115) and which bus accesses the register bus carries
(20_memory.md R84). A constructor of Instr has no operand (R111), so every Instr is well formed; what can be ill formed is
the word the host writes and the access it makes. -/

namespace Sys2Proof

/-- R111: a command has no field that could be out of range. -/
def Instr.wf : Instr → Bool
  | .pad | .deriveIv | .encData | .decData | .computeMac | .verifyMac | .prepare | .unwrap | .encBlock | .decBlock => true

/-- R110: the bits 31:8 of a command word are zero. -/
def rsvdZero (w : Word) : Bool := w.toNat / 256 == 0

/-- R112, R115: the opcode, bits 7:0, is assigned. -/
def opcodeAssigned (w : Word) : Bool := decide (1 ≤ w.toNat % 256) && decide (w.toNat % 256 ≤ 10)

/-- R115: a command word is legal when RSVD is zero and OPCODE is one of 0x01 to 0x0A. -/
def legalWord (w : Word) : Bool := rsvdZero w && opcodeAssigned w

/-- R84: the offset is 4-byte aligned. -/
def aligned (off : BitVec 12) : Bool := off.toNat % 4 == 0

/-- R32, R50: the byte offset belongs to a register or buffer, not to reserved space (0x03C, 0x080 to 0x0FF, 0x300 to
0xFFF). -/
def mapped (off : BitVec 12) : Bool :=
  decide (off.toNat < 0x03C) || (decide (0x040 ≤ off.toNat) && decide (off.toNat < 0x080)) ||
    (decide (0x100 ≤ off.toNat) && decide (off.toNat < 0x300))

/-- R84: the bus carries an access of this width at this offset; every other access gets a bus error. -/
def accessAccepted (width : Width) (off : BitVec 12) : Bool := (width == .word) && aligned off && mapped off

/-- A well-formed input: the reset input, or an access the bus carries. -/
def Input.wf : Input → Bool
  | .read width off => accessAccepted width off
  | .write width off _ => accessAccepted width off
  | .reset => true

end Sys2Proof
end

