-- ==== Sys2Proof/Decode.lean ====
section
/-! DEFINITION. Byte lanes (20_memory.md R81), the decoder and encoder of command words (30_encoding.md R110 to R116), and
the address map from window offsets to register names and back (10_state.md R32). -/

namespace Sys2Proof

/-- R81: lane i of a word, its bits [8i+7:8i]. -/
def lane (w : Word) (i : Nat) : Byte := w.extractLsb' (8 * i) 8

/-- R81: the bytes of a word in increasing address order, lane 0 first. -/
def lanes (w : Word) : List Byte := [lane w 0, lane w 1, lane w 2, lane w 3]

/-- R81, R82: the word whose lanes are the first four bytes of the string; R122: bytes past its end are 0. -/
def ofLanes (bs : List Byte) : Word := bs.getD 3 0 ++ bs.getD 2 0 ++ bs.getD 1 0 ++ bs.getD 0 0

/-- R110: OPCODE, bits 7:0. -/
def opcode (w : Word) : Byte := w.extractLsb' 0 8

/-- R110: RSVD, bits 31:8. -/
def rsvd (w : Word) : BitVec 24 := w.extractLsb' 8 24

/-- Why a word is no command: R115's two grounds, and a byte string too short to hold a word (R110: there is no other
length). -/
inductive DecodeError
  | rsvdNonzero
  | opcodeUnassigned
  | shortWord
  deriving DecidableEq, Repr

/-- R112: the command an opcode selects. -/
def ofOpcode : Nat → Option Instr
  | 0x01 => some .pad
  | 0x02 => some .deriveIv
  | 0x03 => some .encData
  | 0x04 => some .decData
  | 0x05 => some .computeMac
  | 0x06 => some .verifyMac
  | 0x07 => some .prepare
  | 0x08 => some .unwrap
  | 0x09 => some .encBlock
  | 0x0A => some .decBlock
  | _ => none

/-- R110 to R115: the command a CMD word holds, or why it is illegal. -/
def decode (w : Word) : Except DecodeError Instr :=
  if rsvd w ≠ 0 then .error .rsvdNonzero
  else
    match ofOpcode (opcode w).toNat with
    | some i => .ok i
    | none => .error .opcodeUnassigned

/-- The command at the start of a byte string laid out in lane order (R81), and the bytes after it. -/
def decodeBytes : List Byte → Except DecodeError (Instr × List Byte)
  | b0 :: b1 :: b2 :: b3 :: rest =>
    match decode (ofLanes [b0, b1, b2, b3]) with
    | .ok i => .ok (i, rest)
    | .error e => .error e
  | _ => .error .shortWord

/-- R112: the CMD value of each command. -/
def encode : Instr → Word
  | .pad => 0x00000001
  | .deriveIv => 0x00000002
  | .encData => 0x00000003
  | .decData => 0x00000004
  | .computeMac => 0x00000005
  | .verifyMac => 0x00000006
  | .prepare => 0x00000007
  | .unwrap => 0x00000008
  | .encBlock => 0x00000009
  | .decBlock => 0x0000000A

/-- The 32-bit command word of an opcode-table word of nbits bits: every bit above nbits is 0. -/
def tableWord (nbits w : Nat) : Word := BitVec.ofNat 32 (w % 2 ^ nbits)

/-- What the decoder reads from the table's word, laid out in lane order (R81). -/
def decodeTableWord (nbits w : Nat) : Option Instr :=
  match decodeBytes (lanes (tableWord nbits w)) with
  | .ok (i, _) => some i
  | .error _ => none

/-- R32: the control and data registers below 0x040. -/
def lowReg : Nat → Option Reg
  | 0x000 => some .id
  | 0x004 => some .ctrl
  | 0x008 => some .status
  | 0x00C => some .cmd
  | 0x010 => some .kcfg
  | 0x014 => some .sscLo
  | 0x018 => some .sscHi
  | 0x01C => some .hdr
  | 0x020 => some .inLen
  | 0x024 => some .opt
  | 0x028 => some .outLen
  | 0x02C => some .sw
  | 0x030 => some .result
  | 0x034 => some .tag0
  | 0x038 => some .tag1
  | _ => none

/-- R32, R50: the register at a window offset; none at an unaligned or reserved offset. -/
def regAt (off : BitVec 12) : Option Reg :=
  let a := off.toNat
  if a % 4 ≠ 0 then none
  else if a < 0x040 then lowReg a
  else if a < 0x060 then some (.kenc (Fin.ofNat 8 ((a - 0x040) / 4)))
  else if a < 0x080 then some (.kmac (Fin.ofNat 8 ((a - 0x060) / 4)))
  else if a < 0x100 then none
  else if a < 0x200 then some (.inBuf (Fin.ofNat 64 ((a - 0x100) / 4)))
  else if a < 0x300 then some (.outBuf (Fin.ofNat 64 ((a - 0x200) / 4)))
  else none

/-- R32: the offset of a register. -/
def offsetOf : Reg → BitVec 12
  | .id => 0x000
  | .ctrl => 0x004
  | .status => 0x008
  | .cmd => 0x00C
  | .kcfg => 0x010
  | .sscLo => 0x014
  | .sscHi => 0x018
  | .hdr => 0x01C
  | .inLen => 0x020
  | .opt => 0x024
  | .outLen => 0x028
  | .sw => 0x02C
  | .result => 0x030
  | .tag0 => 0x034
  | .tag1 => 0x038
  | .kenc j => BitVec.ofNat 12 (0x040 + 4 * j.val)
  | .kmac j => BitVec.ofNat 12 (0x060 + 4 * j.val)
  | .inBuf j => BitVec.ofNat 12 (0x100 + 4 * j.val)
  | .outBuf j => BitVec.ofNat 12 (0x200 + 4 * j.val)

/-- R32, R84: the register an access of this width reaches; none is a bus error. -/
def accessReg (width : Width) (off : BitVec 12) : Option Reg :=
  match width with
  | .word => regAt off
  | .half => none
  | .byte => none

end Sys2Proof
end

