-- ==== Sys2Proof/Config.lean ====
section
/-! DEFINITION. What is fixed for the machine: the parameters of 00_scope.md R8 to R16, the buffer addresses of the register
window (10_state.md R32), and the constants the spec leaves open, which have no body here, so that nothing can depend on
their value. -/

namespace Sys2Proof.Config

/-- R9: the cipher block size, the padding modulus and the IV size, in bytes. -/
def blockLen : Nat := 16

/-- R8: the key lengths in bytes the engine accepts. A parameter of the spec at the value R8 gives it (log 6). -/
def supportedKeylens : List Nat := [16, 24, 32]

/-- R10: the input buffer's capacity in bytes. -/
def inCap : Nat := 256

/-- R10: the output buffer's capacity in bytes. -/
def outCap : Nat := 256

/-- R11: the greatest number of trailing bytes the padding strip examines. A parameter of the spec (at least 16) at the
value R11 gives it (log 7). -/
def padScanLimit : Nat := 16

/-- R12: the padding-content indicator byte of DO87. -/
def do87Indicator : Byte := 0x01

/-- R13: the length of the MAC tag in bytes. -/
def macLen : Nat := 8

/-- R33: the constant the ID register reads: "SM", version 1.0. -/
def idValue : Word := 0x534D0100

/-- R46: the window offset of KENC byte 0. -/
def kencBase : Nat := 0x040

/-- R47: the window offset of KMAC byte 0. -/
def kmacBase : Nat := 0x060

/-- R46, R47: the bytes of a key register. -/
def keyCap : Nat := 32

/-- R48: the window offset of IN_BUF byte 0. -/
def inBase : Nat := 0x100

/-- R49: the window offset of OUT_BUF byte 0. -/
def outBase : Nat := 0x200

/-- R80: the size in bytes of an instance's register window. -/
def windowSize : Nat := 4096

/-- What a byte that the memory list does not hold reads as: the reset value of every key and buffer byte (R55). -/
def unlistedByte : Byte := 0

/-- FREE VALUE (log 2). R16, R330: the number of host accesses between the issue of a command and its completion, for the
n-th command issued. The spec leaves it unspecified; it is finite. DESIGN CHOICE (log 2): the constant is one for all
instances of a platform, so the n-th commands of two instances get the same latency, which the spec does not say. -/
opaque latency : Nat → Nat

/-- FREE VALUE (log 8). R80, U11: the base address of instance k's window in the platform's address map. -/
opaque base : Nat → Nat

/-- FREE VALUE (log 8). R15: how many instances the platform has beyond the first. -/
opaque furtherInstances : Nat

/-- R15: the number of instances on the platform, at least 1. -/
def nInstances : Nat := furtherInstances + 1

end Sys2Proof.Config
end

