-- ==== Sys2Proof/Machine/State.lean ====
section
/-! DEFINITION. The state of one SM-CORE instance as plain data: every register field of the window (10_state.md R33 to
R49), the byte memory that holds the key registers and the two buffers, and the model's own fields for the outside world
and for the open completion time. Also the reset state (R55, 70_reset_and_hazards.md R310) and the reasons a step could
stop. -/

namespace Sys2Proof.Machine

/-- The error codes 1 to 6 of 60_exceptions.md R271. Code 0 (NONE) is the absence of an error; the codes 7 to 15 are never
produced and have no constructor (U16). -/
inductive ErrCode
  | crypto
  | encoding
  | auth
  | illegalCmd
  | length
  | locked
  deriving DecidableEq, Repr

/-- CTRL (R34). SRST always reads 0 and is not stored. -/
structure Ctrl where
  /-- IE, bit 1: interrupt enable. -/
  ie : Bool
  deriving DecidableEq, Repr

/-- STATUS (R35). Its reserved bits always read 0 and are not stored. -/
structure Status where
  /-- BUSY, bit 0: a command is in flight (R53). -/
  busy : Bool
  /-- DONE, bit 1. -/
  done : Bool
  /-- WERR, bit 2. -/
  werr : Bool
  /-- LOCKED, bit 3. -/
  locked : Bool
  /-- ERR, bits 11:8; none is code 0. -/
  err : Option ErrCode
  deriving DecidableEq, Repr

/-- KCFG (R37). -/
structure Kcfg where
  /-- KENC_LEN, bits 5:0. -/
  kencLen : BitVec 6
  /-- KMAC_LEN, bits 13:8. -/
  kmacLen : BitVec 6
  deriving DecidableEq, Repr

/-- OPT (R41). -/
structure Opt where
  /-- DATA_PRESENT, bit 0. -/
  dataPresent : Bool
  /-- LE_PRESENT, bit 1. -/
  lePresent : Bool
  /-- LE_LEN, bit 2. -/
  leLen : BitVec 1
  /-- LE_VAL, bits 15:8. -/
  leVal : Byte
  deriving DecidableEq, Repr

/-- RESULT (R44). -/
structure Result where
  /-- MATCH, bit 0. -/
  matched : Bool
  /-- DO87_SEEN, bit 1. -/
  do87Seen : Bool
  deriving DecidableEq, Repr

/-- The bytes of KENC, KMAC, IN_BUF and OUT_BUF, each at its window offset: pairs (offset, byte), offsets strictly
rising, no byte equal to what an unlisted offset reads as (Memory.wf). -/
abbrev Memory := List Host.Cell

/-- The canonical form of a memory. -/
abbrev Memory.wf (m : Memory) : Prop :=
  m.Pairwise (fun c d => c.1 < d.1) ∧ ∀ c ∈ m, c.2 ≠ Config.unlistedByte

/-- What the bus answers to one access (20_memory.md R84, R85). -/
inductive BusResponse
  /-- The data of an accepted read. -/
  | data (value : Word)
  /-- An accepted write, applied or ignored. -/
  | written
  /-- A bus-error read and the data it returns. -/
  | readError (value : Word)
  /-- A bus-error write. -/
  | writeError
  deriving DecidableEq, Repr

/-- The state of one instance. -/
structure State where
  /-- CTRL, 0x004. -/
  ctrl : Ctrl
  /-- STATUS, 0x008. -/
  status : Status
  /-- CMD, 0x00C: the last latched word (R36). -/
  cmd : Word
  /-- KCFG, 0x010. -/
  kcfg : Kcfg
  /-- SSC_LO, 0x014. -/
  sscLo : Word
  /-- SSC_HI, 0x018. -/
  sscHi : Word
  /-- HDR, 0x01C. -/
  hdr : Word
  /-- IN_LEN.LEN, 0x020. -/
  inLen : BitVec 9
  /-- OPT, 0x024. -/
  opt : Opt
  /-- OUT_LEN.LEN, 0x028. -/
  outLen : BitVec 9
  /-- SW, 0x02C: SW1 in bits 15:8, SW2 in bits 7:0 (R43). -/
  sw : BitVec 16
  /-- RESULT, 0x030. -/
  result : Result
  /-- TAG0, 0x034. -/
  tag0 : Word
  /-- TAG1, 0x038. -/
  tag1 : Word
  /-- KENC, KMAC, IN_BUF and OUT_BUF. -/
  mem : Memory
  /-- The model's own: the inputs still to come, oldest first (log 1). -/
  pending : List Input
  /-- The model's own: the bus responses given so far, oldest first (log 1). -/
  responses : List BusResponse
  /-- The model's own: how many commands have been issued, the index of Config.latency (log 3). -/
  issues : Nat
  /-- The model's own: host accesses still to pass before the engine completes; read only while BUSY (log 3). -/
  countdown : Nat
  deriving DecidableEq, Repr

/-- STATUS after reset (R35). -/
def Status.reset : Status := { busy := false, done := false, werr := false, locked := false, err := none }

/-- The state right after reset (R55, R310): every register 0 but ID, every key and buffer byte 0, no command in flight.
The last four fields are the model's own (log 1, log 3: DESIGN CHOICE). -/
def State.reset : State where
  ctrl := { ie := false }
  status := Status.reset
  cmd := 0
  kcfg := { kencLen := 0, kmacLen := 0 }
  sscLo := 0
  sscHi := 0
  hdr := 0
  inLen := 0
  opt := { dataPresent := false, lePresent := false, leLen := 0, leVal := 0 }
  outLen := 0
  sw := 0
  result := { matched := false, do87Seen := false }
  tag0 := 0
  tag1 := 0
  mem := []
  pending := []
  responses := []
  issues := 0
  countdown := 0

/-- Why the machine stops with a fault: SM-CORE has no such stop. A command always completes (R275: "Exec is a total
function of SNAP", "The command cannot be stuck and has no other outcome"), and a bus error is a response after which the
machine goes on (R84). So there is no constructor, and no step can fault (log 5). -/
inductive Fault
  deriving DecidableEq, Repr

/-- Why a step is refused. -/
inductive Refusal
  /-- Raised only by an arm of exec whose command has no meaning yet; every command has its meaning, so nothing raises it.
  Safe: it stops. -/
  | notModelled (mnemonic : String)
  deriving DecidableEq, Repr

end Sys2Proof.Machine
end

