-- ==== Sys2Proof/Machine/Flags.lean ====
section
/-! DEFINITION. The status flags (10_state.md R51): what an issue, a completion and a host write make of STATUS, the error
codes (60_exceptions.md R271), the interrupt (R285), and the words the flag and field registers read as (R34 to R44). -/

namespace Sys2Proof.Machine

/-- R271: the code STATUS.ERR shows, 0 for no error. -/
def errCode : Option ErrCode → Nat
  | none => 0
  | some .crypto => 1
  | some .encoding => 2
  | some .auth => 3
  | some .illegalCmd => 4
  | some .length => 5
  | some .locked => 6

/-- R274: an issue sets BUSY and clears DONE and ERR; WERR and LOCKED are unchanged. -/
def Status.issued (st : Status) : Status := { st with busy := true, done := false, err := none }

/-- R275, R278: a completion with error e clears BUSY, sets DONE and ERR, and latches LOCKED when e is AUTH. -/
def Status.completed (st : Status) (e : Option ErrCode) : Status :=
  { st with busy := false, done := true, err := e, locked := st.locked || e == some .auth }

/-- R35: a host write clears DONE and WERR where the written bit is 1, and nothing else. -/
def Status.acknowledged (st : Status) (v : Word) : Status :=
  { st with done := st.done && !v.getLsbD 1, werr := st.werr && !v.getLsbD 2 }

/-- R86: a host write that was ignored because BUSY = 1 sets WERR. -/
def Status.writeLost (st : Status) : Status := { st with werr := true }

/-- R35: the word STATUS reads as. -/
def Status.word (st : Status) : Word :=
  BitVec.ofNat 32 (st.busy.toNat + 2 * st.done.toNat + 4 * st.werr.toNat + 8 * st.locked.toNat + 256 * errCode st.err)

/-- R34: the word CTRL reads as; SRST reads 0. -/
def Ctrl.word (c : Ctrl) : Word := BitVec.ofNat 32 (2 * c.ie.toNat)

/-- R34: the CTRL a write with SRST = 0 leaves. -/
def Ctrl.ofWord (v : Word) : Ctrl := { ie := v.getLsbD 1 }

/-- R34: the write asks for a soft reset. -/
def srst (v : Word) : Bool := v.getLsbD 0

/-- R37: the word KCFG reads as. -/
def Kcfg.word (k : Kcfg) : Word := (k.kmacLen.setWidth 32 <<< 8) ||| k.kencLen.setWidth 32

/-- R37: the KCFG a write leaves; reserved bits are ignored (R50). -/
def Kcfg.ofWord (v : Word) : Kcfg := { kencLen := v.extractLsb' 0 6, kmacLen := v.extractLsb' 8 6 }

/-- R41: the word OPT reads as. -/
def Opt.word (o : Opt) : Word :=
  (o.leVal.setWidth 32 <<< 8) ||| (o.leLen.setWidth 32 <<< 2) ||| BitVec.ofNat 32 (2 * o.lePresent.toNat + o.dataPresent.toNat)

/-- R41: the OPT a write leaves; reserved bits are ignored (R50). -/
def Opt.ofWord (v : Word) : Opt :=
  { dataPresent := v.getLsbD 0, lePresent := v.getLsbD 1, leLen := v.extractLsb' 2 1, leVal := v.extractLsb' 8 8 }

/-- R44: the word RESULT reads as. -/
def Result.word (r : Result) : Word := BitVec.ofNat 32 (r.matched.toNat + 2 * r.do87Seen.toNat)

/-- R274: RESULT as an issue leaves it. -/
def Result.cleared : Result := { matched := false, do87Seen := false }

/-- R285: the interrupt output, a level: IE AND DONE. -/
def State.irq (s : State) : Bool := s.ctrl.ie && s.status.done

end Sys2Proof.Machine
end

