-- ==== Sys2Proof/Machine/Ops.lean ====
section
/-! DEFINITION. The shared operations: byte memory in canonical form, the issue of a command (60_exceptions.md R274), the
completion of a command with outputs or with an error (R270, R275 to R278: SM-CORE's "taking an exception"; there is no
return, R281: the host acknowledges by a STATUS write or the next issue), and the reset (70_reset_and_hazards.md R310,
R311). -/

namespace Sys2Proof.Machine

/-- The byte at an offset. -/
def Memory.read : Memory → Nat → Byte
  | [], _ => Config.unlistedByte
  | (b, w) :: rest, a => if a = b then w else Memory.read rest a

/-- Puts a listed byte in its place. -/
def Memory.insert : Memory → Nat → Byte → Memory
  | [], a, v => [(a, v)]
  | (b, w) :: rest, a, v =>
    if a < b then (a, v) :: (b, w) :: rest
    else if a = b then (a, v) :: rest
    else (b, w) :: Memory.insert rest a v

/-- Takes an offset out of the list. -/
def Memory.erase (m : Memory) (a : Nat) : Memory := m.filter (fun c => c.1 != a)

/-- Writes one byte; writing what an unlisted offset reads as removes the entry. -/
def Memory.write (m : Memory) (a : Nat) (v : Byte) : Memory :=
  if v = Config.unlistedByte then m.erase a else m.insert a v

/-- Writes a byte string in increasing offset order (20_memory.md R81). -/
def Memory.writeBytes : Memory → Nat → List Byte → Memory
  | m, _, [] => m
  | m, a, v :: vs => Memory.writeBytes (m.write a v) (a + 1) vs

/-- The n bytes from an offset on. -/
def Memory.readBytes (m : Memory) (a n : Nat) : List Byte := (List.range n).map (fun i => m.read (a + i))

/-- Sets n bytes from an offset on to 0 (R274). -/
def Memory.clear (m : Memory) (a n : Nat) : Memory :=
  m.filter (fun c => decide (c.1 < a) || decide (a + n ≤ c.1))

/-- R82: the word at a 4-aligned offset, lane i from offset a + i. -/
def Memory.readWord (m : Memory) (a : Nat) : Word := ofLanes (m.readBytes a 4)

/-- R82: writes the four lanes of a word. -/
def Memory.writeWord (m : Memory) (a : Nat) (v : Word) : Memory := m.writeBytes a (lanes v)

/-- What a command produces when it succeeds (30_encoding.md R114, "writes on success"): each output its rule names. -/
structure Outputs where
  /-- OUT[0..len) and OUT_LEN. -/
  bytes : Option (List Byte) := none
  /-- SW. -/
  sw : Option (BitVec 16) := none
  /-- RESULT.MATCH. -/
  matched : Option Bool := none
  /-- RESULT.DO87_SEEN. -/
  do87Seen : Option Bool := none
  deriving DecidableEq, Repr

/-- `assert P else raise E` (00_scope.md R21, R270). -/
def check (b : Bool) (e : ErrCode) : Except ErrCode Unit := if b then .ok () else .error e

/-- R275: OUT and OUT_LEN take a result string, if the command produces one. -/
def State.writeOut (s : State) : Option (List Byte) → State
  | some bs => { s with mem := s.mem.writeBytes Config.outBase bs, outLen := BitVec.ofNat 9 bs.length }
  | none => s

/-- R275: a completion with e = 0 writes the outputs the command's rule names, and STATUS. -/
def State.succeed (s : State) (o : Outputs) : State :=
  { s.writeOut o.bytes with
    sw := o.sw.getD s.sw
    result := { matched := o.matched.getD s.result.matched, do87Seen := o.do87Seen.getD s.result.do87Seen }
    status := s.status.completed none }

/-- R275 to R277: a completion with an error writes STATUS and nothing else. -/
def State.fail (s : State) (e : ErrCode) : State := { s with status := s.status.completed (some e) }

/-- R275: the completion step's effect for the result Exec computed from the current registers. -/
def State.complete (s : State) : Except ErrCode Outputs → State
  | .ok o => s.succeed o
  | .error e => s.fail e

/-- R115, R272: the completion of an illegal command word: ERR = ILLEGAL_CMD and no other effect. -/
def execIllegal (s : State) : Host.Outcome State Fault Refusal := .next (s.fail .illegalCmd)

/-- R274: the issue of a command word. It also fixes when the engine will be due (R16, the free value Config.latency; log
2: DESIGN CHOICE, the latency depends on the number of the issue alone, so the n-th commands of two instances share it) and
counts the issue (log 3). -/
def State.issue (s : State) (w : Word) : State :=
  { s with
    cmd := w
    status := s.status.issued
    mem := s.mem.clear Config.outBase Config.outCap
    outLen := 0
    sw := 0
    result := Result.cleared
    issues := s.issues + 1
    countdown := Config.latency s.issues }

/-- R310, R311: every register, key and buffer byte takes its reset value and a command in flight is aborted. The model's
own fields about the outside world and the issue count go on (log 3, log 10). -/
def State.resetAll (s : State) : State :=
  { State.reset with pending := s.pending, responses := s.responses, issues := s.issues }

end Sys2Proof.Machine
end

