-- ==== Sys2Proof/Machine/Operands.lean ====
section
/-! DEFINITION. The operands of the commands (30_encoding.md R111, R114; 10_state.md R38 to R48, R52), the common prelude
(60_exceptions.md R272) and the key check (41_block_cipher.md R161). Every one reads the state at the completion step, the
SNAP of R275. -/

namespace Sys2Proof.Machine

/-- R40, R48: the input byte string IN[0..IN_LEN). It is used only after the LENGTH check, which bounds IN_LEN by 256 (log
18). -/
def State.inBytes (s : State) : List Byte := s.mem.readBytes Config.inBase s.inLen.toNat

/-- R46, R52: kenc = KENC[0..KENC_LEN). It is used only after the key check, which bounds KENC_LEN by 32 (log 18). -/
def State.kenc (s : State) : List Byte := s.mem.readBytes Config.kencBase s.kcfg.kencLen.toNat

/-- R47, R52: kmac = KMAC[0..KMAC_LEN), used only after the key check (log 18). -/
def State.kmac (s : State) : List Byte := s.mem.readBytes Config.kmacBase s.kcfg.kmacLen.toNat

/-- R38: the send sequence counter, SSC_HI << 32 | SSC_LO. -/
def State.ssc (s : State) : BitVec 64 := s.sscHi ++ s.sscLo

/-- R39: the plain command header, CLA first. -/
def State.header (s : State) : List Byte := lanes s.hdr

/-- R45: the 8-byte tag VERIFY_MAC compares against. -/
def State.tag (s : State) : List Byte := lanes s.tag0 ++ lanes s.tag1

/-- R41, R52, 44_apdu.md R231: the data of a plain command, absent unless DATA_PRESENT. -/
def State.data (s : State) : Option (List Byte) := if s.opt.dataPresent then some s.inBytes else none

/-- R41, R52: the le of a plain command: absent unless LE_PRESENT, else LE_LEN (0 or 1) bytes. -/
def State.le (s : State) : Option (List Byte) :=
  if s.opt.lePresent then some (if s.opt.leLen = 1 then [s.opt.leVal] else []) else none

/-- R113: every command but PAD is keyed. -/
def keyed : Instr → Bool
  | .pad => false
  | .deriveIv | .encData | .decData | .computeMac | .verifyMac | .prepare | .unwrap | .encBlock | .decBlock => true

/-- R272: the commands that read IN, PREPARE only when OPT.DATA_PRESENT = 1. -/
def readsIn (s : State) : Instr → Bool
  | .pad | .encData | .decData | .computeMac | .verifyMac | .unwrap | .encBlock | .decBlock => true
  | .deriveIv => false
  | .prepare => s.opt.dataPresent

/-- R272, steps 2 and 3: LOCKED, then LENGTH of IN_LEN. Step 1, ILLEGAL_CMD, is the decoder's (a word that decodes is
legal). -/
def runPrelude (i : Instr) (s : State) : Except ErrCode Unit := do
  check (!(keyed i && s.status.locked)) .locked
  check (!readsIn s i || decide (s.inLen.toNat ≤ Config.inCap)) .length

/-- R161: KENC_LEN is supported and KMAC_LEN equals it. -/
def State.keysOk (s : State) : Bool :=
  Config.supportedKeylens.contains s.kcfg.kencLen.toNat && s.kcfg.kmacLen == s.kcfg.kencLen

/-- R161: the key check. -/
def keyCheck (s : State) : Except ErrCode Unit := check s.keysOk .crypto

/-- R272, R273: the checks every command performs before its own: the prelude, and the key check of a keyed command. -/
def runChecks (i : Instr) (s : State) : Except ErrCode Unit := do
  runPrelude i s
  if keyed i then keyCheck s else .ok ()

end Sys2Proof.Machine
end

