-- ==== Sys2Proof/Machine/Bus.lean ====
section
/-! DEFINITION. The register bus (20_memory.md R80 to R90; the registers of 10_state.md R33 to R49): reading and writing a
register, bus errors, the write gate, and how one input of the outside world acts on the state. -/

namespace Sys2Proof.Machine

/-- R82, R85: the word a register gives. Key registers read 0 (R46, R47). No read has a side effect. -/
def State.readReg (s : State) : Reg → Word
  | .id => Config.idValue
  | .ctrl => s.ctrl.word
  | .status => s.status.word
  | .cmd => s.cmd
  | .kcfg => s.kcfg.word
  | .sscLo => s.sscLo
  | .sscHi => s.sscHi
  | .hdr => s.hdr
  | .inLen => s.inLen.setWidth 32
  | .opt => s.opt.word
  | .outLen => s.outLen.setWidth 32
  | .sw => s.sw.setWidth 32
  | .result => s.result.word
  | .tag0 => s.tag0
  | .tag1 => s.tag1
  | .kenc _ => 0
  | .kmac _ => 0
  | .inBuf j => s.mem.readWord (Config.inBase + 4 * j.val)
  | .outBuf j => s.mem.readWord (Config.outBase + 4 * j.val)

/-- R85, R86: "apply v to the register at off per its access rule". Writes to read-only registers are ignored, reserved
bits too (R50); a CTRL write with SRST resets (R311); a CMD write issues (R274). -/
def State.applyWrite (s : State) : Reg → Word → State
  | .id, _ => s
  | .ctrl, v => if srst v then s.resetAll else { s with ctrl := Ctrl.ofWord v }
  | .status, v => { s with status := s.status.acknowledged v }
  | .cmd, v => s.issue v
  | .kcfg, v => { s with kcfg := Kcfg.ofWord v }
  | .sscLo, v => { s with sscLo := v }
  | .sscHi, v => { s with sscHi := v }
  | .hdr, v => { s with hdr := v }
  | .inLen, v => { s with inLen := v.extractLsb' 0 9 }
  | .opt, v => { s with opt := Opt.ofWord v }
  | .outLen, _ => s
  | .sw, _ => s
  | .result, _ => s
  | .tag0, v => { s with tag0 := v }
  | .tag1, v => { s with tag1 := v }
  | .kenc j, v => { s with mem := s.mem.writeWord (Config.kencBase + 4 * j.val) v }
  | .kmac j, v => { s with mem := s.mem.writeWord (Config.kmacBase + 4 * j.val) v }
  | .inBuf j, v => { s with mem := s.mem.writeWord (Config.inBase + 4 * j.val) v }
  | .outBuf _, _ => s

/-- R86: a write to this register takes effect: always when BUSY = 0, and to CTRL and STATUS even when BUSY = 1. -/
def State.gateOpen (s : State) (r : Reg) : Bool := !s.status.busy || r == .ctrl || r == .status

/-- R86: an accepted write: applied, or ignored with WERR set. -/
def State.writeReg (s : State) (r : Reg) (v : Word) : State :=
  if s.gateOpen r then s.applyWrite r v else { s with status := s.status.writeLost }

/-- The bus gives the host a response. -/
def State.respond (s : State) (r : BusResponse) : State := { s with responses := s.responses ++ [r] }

/-- R82, R84: what a read answers: the register's word, or a bus error with data 0. -/
def State.readAnswer (s : State) (width : Width) (off : BitVec 12) : BusResponse :=
  match accessReg width off with
  | some r => .data (s.readReg r)
  | none => .readError 0

/-- R84, R86: a write access: a bus error changes no state. -/
def State.writeAccess (s : State) (width : Width) (off : BitVec 12) (v : Word) : State :=
  match accessReg width off with
  | some r => (s.writeReg r v).respond .written
  | none => s.respond .writeError

/-- R7, R90, R310: one input of the outside world, performed whole before the next. -/
def State.perform (s : State) : Input → State
  | .read width off => s.respond (s.readAnswer width off)
  | .write width off v => s.writeAccess width off v
  | .reset => s.resetAll

/-- The next input leaves the queue; while a command is in flight the access counts against its latency (R16; log 2). -/
def State.takeInput (s : State) (rest : List Input) : State :=
  { s with pending := rest, countdown := if s.status.busy then s.countdown - 1 else s.countdown }

/-- R275, R330: the engine takes its completion step now: a command is in flight, and its latency has passed or the host
does nothing more (log 2). -/
def State.engineDue (s : State) : Bool := s.status.busy && (s.countdown == 0 || s.pending.isEmpty)

end Sys2Proof.Machine
end

