-- ==== Sys2Proof/Machine/Bytes.lean ====
section
/-! DEFINITION. Byte strings and numbers (00_scope.md R17, R18): big-endian strings, exclusive-or, ranges
and single bytes. -/

namespace Sys2Proof.Machine

/-- R18: be_n(v), byte i of the n bytes is v[8(n-1-i)+7 : 8(n-1-i)]. -/
def be (n : Nat) (v : Nat) : List Byte := (List.range n).map (fun i => BitVec.ofNat 8 (v >>> (8 * (n - 1 - i))))

/-- R18: int(s), the unsigned big-endian value of a byte string. -/
def intOf (s : List Byte) : Nat := s.foldl (fun acc b => acc * 256 + b.toNat) 0

/-- R17: the bytewise exclusive-or of two strings of equal length. -/
def xorBytes (a b : List Byte) : List Byte := List.zipWith (fun x y => x ^^^ y) a b

/-- R17: n zero bytes. -/
def zeros (n : Nat) : List Byte := List.replicate n 0

/-- R17: s[a..b). -/
def slice (s : List Byte) (a b : Nat) : List Byte := (s.drop a).take (b - a)

/-- R17: s[i]. -/
def byteAt (s : List Byte) (i : Nat) : Byte := s.getD i 0

end Sys2Proof.Machine
end

