-- ==== Sys2Proof/Machine/BlockCipher.lean ====
section
/-! DEFINITION. The Block Cipher Engine (41_block_cipher.md): AES (R150 to R158), CBC chaining (R162, R163), and the
commands ENC_BLOCK and DEC_BLOCK. -/

namespace Sys2Proof.Machine

/-- R151: one column of the AES state, or one key word: four bytes, row 0 first. -/
structure Column where
  r0 : Byte
  r1 : Byte
  r2 : Byte
  r3 : Byte
  deriving DecidableEq, Repr

/-- R151: the 4 by 4 AES state, by columns. -/
structure AesState where
  c0 : Column
  c1 : Column
  c2 : Column
  c3 : Column
  deriving DecidableEq, Repr

/-- The column of four bytes of a string from index i on. -/
def Column.ofBytes (b : List Byte) (i : Nat) : Column := ⟨byteAt b i, byteAt b (i + 1), byteAt b (i + 2), byteAt b (i + 3)⟩

/-- The bytes of a column. -/
def Column.bytes (w : Column) : List Byte := [w.r0, w.r1, w.r2, w.r3]

/-- The column of zeros. -/
def Column.zero : Column := ⟨0, 0, 0, 0⟩

/-- A byte function on every byte of a column. -/
def Column.map (f : Byte → Byte) (w : Column) : Column := ⟨f w.r0, f w.r1, f w.r2, f w.r3⟩

/-- Exclusive-or of columns. -/
def Column.xor (v w : Column) : Column := ⟨v.r0 ^^^ w.r0, v.r1 ^^^ w.r1, v.r2 ^^^ w.r2, v.r3 ^^^ w.r3⟩

/-- R151, in: S[r][c] = b[r + 4c]. -/
def AesState.ofBytes (b : List Byte) : AesState :=
  ⟨Column.ofBytes b 0, Column.ofBytes b 4, Column.ofBytes b 8, Column.ofBytes b 12⟩

/-- R151, out: b[r + 4c] = S[r][c]. -/
def AesState.bytes (s : AesState) : List Byte := s.c0.bytes ++ s.c1.bytes ++ s.c2.bytes ++ s.c3.bytes

/-- A column function on every column. -/
def AesState.map (f : Column → Column) (s : AesState) : AesState := ⟨f s.c0, f s.c1, f s.c2, f s.c3⟩

/-- Exclusive-or of states. -/
def AesState.xor (s t : AesState) : AesState := ⟨s.c0.xor t.c0, s.c1.xor t.c1, s.c2.xor t.c2, s.c3.xor t.c3⟩

/-- R152: multiplication by x in GF(2^8) modulo 0x11B. -/
def xtime (a : Byte) : Byte := (a <<< 1) ^^^ (if a.getLsbD 7 then 0x1B else 0x00)

/-- The sum of the first n terms of a • b, one per bit of a. -/
def gmulBits : Nat → Byte → Byte → Byte
  | 0, _, _ => 0
  | n + 1, a, b => (if a.getLsbD 0 then b else 0) ^^^ gmulBits n (a >>> 1) (xtime b)

/-- R152: multiplication a • b in GF(2^8). -/
def gmul (a b : Byte) : Byte := gmulBits 8 a b

/-- R153: the S-box, by rows of the high nibble. -/
def sboxRows : List (List Nat) :=
  [
   [0x63, 0x7c, 0x77, 0x7b, 0xf2, 0x6b, 0x6f, 0xc5, 0x30, 0x01, 0x67, 0x2b, 0xfe, 0xd7, 0xab, 0x76],
   [0xca, 0x82, 0xc9, 0x7d, 0xfa, 0x59, 0x47, 0xf0, 0xad, 0xd4, 0xa2, 0xaf, 0x9c, 0xa4, 0x72, 0xc0],
   [0xb7, 0xfd, 0x93, 0x26, 0x36, 0x3f, 0xf7, 0xcc, 0x34, 0xa5, 0xe5, 0xf1, 0x71, 0xd8, 0x31, 0x15],
   [0x04, 0xc7, 0x23, 0xc3, 0x18, 0x96, 0x05, 0x9a, 0x07, 0x12, 0x80, 0xe2, 0xeb, 0x27, 0xb2, 0x75],
   [0x09, 0x83, 0x2c, 0x1a, 0x1b, 0x6e, 0x5a, 0xa0, 0x52, 0x3b, 0xd6, 0xb3, 0x29, 0xe3, 0x2f, 0x84],
   [0x53, 0xd1, 0x00, 0xed, 0x20, 0xfc, 0xb1, 0x5b, 0x6a, 0xcb, 0xbe, 0x39, 0x4a, 0x4c, 0x58, 0xcf],
   [0xd0, 0xef, 0xaa, 0xfb, 0x43, 0x4d, 0x33, 0x85, 0x45, 0xf9, 0x02, 0x7f, 0x50, 0x3c, 0x9f, 0xa8],
   [0x51, 0xa3, 0x40, 0x8f, 0x92, 0x9d, 0x38, 0xf5, 0xbc, 0xb6, 0xda, 0x21, 0x10, 0xff, 0xf3, 0xd2],
   [0xcd, 0x0c, 0x13, 0xec, 0x5f, 0x97, 0x44, 0x17, 0xc4, 0xa7, 0x7e, 0x3d, 0x64, 0x5d, 0x19, 0x73],
   [0x60, 0x81, 0x4f, 0xdc, 0x22, 0x2a, 0x90, 0x88, 0x46, 0xee, 0xb8, 0x14, 0xde, 0x5e, 0x0b, 0xdb],
   [0xe0, 0x32, 0x3a, 0x0a, 0x49, 0x06, 0x24, 0x5c, 0xc2, 0xd3, 0xac, 0x62, 0x91, 0x95, 0xe4, 0x79],
   [0xe7, 0xc8, 0x37, 0x6d, 0x8d, 0xd5, 0x4e, 0xa9, 0x6c, 0x56, 0xf4, 0xea, 0x65, 0x7a, 0xae, 0x08],
   [0xba, 0x78, 0x25, 0x2e, 0x1c, 0xa6, 0xb4, 0xc6, 0xe8, 0xdd, 0x74, 0x1f, 0x4b, 0xbd, 0x8b, 0x8a],
   [0x70, 0x3e, 0xb5, 0x66, 0x48, 0x03, 0xf6, 0x0e, 0x61, 0x35, 0x57, 0xb9, 0x86, 0xc1, 0x1d, 0x9e],
   [0xe1, 0xf8, 0x98, 0x11, 0x69, 0xd9, 0x8e, 0x94, 0x9b, 0x1e, 0x87, 0xe9, 0xce, 0x55, 0x28, 0xdf],
   [0x8c, 0xa1, 0x89, 0x0d, 0xbf, 0xe6, 0x42, 0x68, 0x41, 0x99, 0x2d, 0x0f, 0xb0, 0x54, 0xbb, 0x16]]

/-- R154: the inverse S-box, by rows of the high nibble. -/
def invSboxRows : List (List Nat) :=
  [
   [0x52, 0x09, 0x6a, 0xd5, 0x30, 0x36, 0xa5, 0x38, 0xbf, 0x40, 0xa3, 0x9e, 0x81, 0xf3, 0xd7, 0xfb],
   [0x7c, 0xe3, 0x39, 0x82, 0x9b, 0x2f, 0xff, 0x87, 0x34, 0x8e, 0x43, 0x44, 0xc4, 0xde, 0xe9, 0xcb],
   [0x54, 0x7b, 0x94, 0x32, 0xa6, 0xc2, 0x23, 0x3d, 0xee, 0x4c, 0x95, 0x0b, 0x42, 0xfa, 0xc3, 0x4e],
   [0x08, 0x2e, 0xa1, 0x66, 0x28, 0xd9, 0x24, 0xb2, 0x76, 0x5b, 0xa2, 0x49, 0x6d, 0x8b, 0xd1, 0x25],
   [0x72, 0xf8, 0xf6, 0x64, 0x86, 0x68, 0x98, 0x16, 0xd4, 0xa4, 0x5c, 0xcc, 0x5d, 0x65, 0xb6, 0x92],
   [0x6c, 0x70, 0x48, 0x50, 0xfd, 0xed, 0xb9, 0xda, 0x5e, 0x15, 0x46, 0x57, 0xa7, 0x8d, 0x9d, 0x84],
   [0x90, 0xd8, 0xab, 0x00, 0x8c, 0xbc, 0xd3, 0x0a, 0xf7, 0xe4, 0x58, 0x05, 0xb8, 0xb3, 0x45, 0x06],
   [0xd0, 0x2c, 0x1e, 0x8f, 0xca, 0x3f, 0x0f, 0x02, 0xc1, 0xaf, 0xbd, 0x03, 0x01, 0x13, 0x8a, 0x6b],
   [0x3a, 0x91, 0x11, 0x41, 0x4f, 0x67, 0xdc, 0xea, 0x97, 0xf2, 0xcf, 0xce, 0xf0, 0xb4, 0xe6, 0x73],
   [0x96, 0xac, 0x74, 0x22, 0xe7, 0xad, 0x35, 0x85, 0xe2, 0xf9, 0x37, 0xe8, 0x1c, 0x75, 0xdf, 0x6e],
   [0x47, 0xf1, 0x1a, 0x71, 0x1d, 0x29, 0xc5, 0x89, 0x6f, 0xb7, 0x62, 0x0e, 0xaa, 0x18, 0xbe, 0x1b],
   [0xfc, 0x56, 0x3e, 0x4b, 0xc6, 0xd2, 0x79, 0x20, 0x9a, 0xdb, 0xc0, 0xfe, 0x78, 0xcd, 0x5a, 0xf4],
   [0x1f, 0xdd, 0xa8, 0x33, 0x88, 0x07, 0xc7, 0x31, 0xb1, 0x12, 0x10, 0x59, 0x27, 0x80, 0xec, 0x5f],
   [0x60, 0x51, 0x7f, 0xa9, 0x19, 0xb5, 0x4a, 0x0d, 0x2d, 0xe5, 0x7a, 0x9f, 0x93, 0xc9, 0x9c, 0xef],
   [0xa0, 0xe0, 0x3b, 0x4d, 0xae, 0x2a, 0xf5, 0xb0, 0xc8, 0xeb, 0xbb, 0x3c, 0x83, 0x53, 0x99, 0x61],
   [0x17, 0x2b, 0x04, 0x7e, 0xba, 0x77, 0xd6, 0x26, 0xe1, 0x69, 0x14, 0x63, 0x55, 0x21, 0x0c, 0x7d]]

/-- The table entry of a byte: row the high nibble, column the low nibble (R153). -/
def tableEntry (rows : List (List Nat)) (x : Byte) : Byte :=
  BitVec.ofNat 8 ((rows.getD (x.toNat / 16) []).getD (x.toNat % 16) 0)

/-- R153: SBOX[x]. -/
def sbox (x : Byte) : Byte := tableEntry sboxRows x

/-- R154: INV_SBOX[y]. -/
def invSbox (y : Byte) : Byte := tableEntry invSboxRows y

/-- R155. -/
def subBytes (s : AesState) : AesState := s.map (Column.map sbox)

/-- R155. -/
def invSubBytes (s : AesState) : AesState := s.map (Column.map invSbox)

/-- R155: row r rotated left by r, S'[r][c] = S[r][(c + r) mod 4]. -/
def shiftRows (s : AesState) : AesState :=
  ⟨⟨s.c0.r0, s.c1.r1, s.c2.r2, s.c3.r3⟩, ⟨s.c1.r0, s.c2.r1, s.c3.r2, s.c0.r3⟩,
   ⟨s.c2.r0, s.c3.r1, s.c0.r2, s.c1.r3⟩, ⟨s.c3.r0, s.c0.r1, s.c1.r2, s.c2.r3⟩⟩

/-- R155: S'[r][c] = S[r][(c − r) mod 4]. -/
def invShiftRows (s : AesState) : AesState :=
  ⟨⟨s.c0.r0, s.c3.r1, s.c2.r2, s.c1.r3⟩, ⟨s.c1.r0, s.c0.r1, s.c3.r2, s.c2.r3⟩,
   ⟨s.c2.r0, s.c1.r1, s.c0.r2, s.c3.r3⟩, ⟨s.c3.r0, s.c2.r1, s.c1.r2, s.c0.r3⟩⟩

/-- R155: MixColumns on one column. -/
def mixColumn (a : Column) : Column :=
  ⟨gmul 0x02 a.r0 ^^^ gmul 0x03 a.r1 ^^^ a.r2 ^^^ a.r3,
   a.r0 ^^^ gmul 0x02 a.r1 ^^^ gmul 0x03 a.r2 ^^^ a.r3,
   a.r0 ^^^ a.r1 ^^^ gmul 0x02 a.r2 ^^^ gmul 0x03 a.r3,
   gmul 0x03 a.r0 ^^^ a.r1 ^^^ a.r2 ^^^ gmul 0x02 a.r3⟩

/-- R155: InvMixColumns on one column. -/
def invMixColumn (a : Column) : Column :=
  ⟨gmul 0x0e a.r0 ^^^ gmul 0x0b a.r1 ^^^ gmul 0x0d a.r2 ^^^ gmul 0x09 a.r3,
   gmul 0x09 a.r0 ^^^ gmul 0x0e a.r1 ^^^ gmul 0x0b a.r2 ^^^ gmul 0x0d a.r3,
   gmul 0x0d a.r0 ^^^ gmul 0x09 a.r1 ^^^ gmul 0x0e a.r2 ^^^ gmul 0x0b a.r3,
   gmul 0x0b a.r0 ^^^ gmul 0x0d a.r1 ^^^ gmul 0x09 a.r2 ^^^ gmul 0x0e a.r3⟩

/-- R155. -/
def mixColumns (s : AesState) : AesState := s.map mixColumn

/-- R155. -/
def invMixColumns (s : AesState) : AesState := s.map invMixColumn

/-- R150: Nk, the key's 32-bit words. -/
def keyNk (k : List Byte) : Nat := k.length / 4

/-- R150: Nr, the rounds: 10, 12 or 14 for Nk 4, 6 or 8. -/
def keyNr (k : List Byte) : Nat := keyNk k + 6

/-- R156. -/
def rotWord (w : Column) : Column := ⟨w.r1, w.r2, w.r3, w.r0⟩

/-- R156. -/
def subWord (w : Column) : Column := w.map sbox

/-- R156: Rcon[1] = 0x01, Rcon[j+1] = xtime(Rcon[j]); there is no Rcon[0]. -/
def rcon : Nat → Byte
  | 0 => 0
  | 1 => 0x01
  | j + 2 => xtime (rcon (j + 1))

/-- W[i] of a list of key words; every index the rules use is in the list. -/
def wordAt (w : List Column) (i : Nat) : Column := w.getD i Column.zero

/-- R156: the body of the expansion loop, the word W[i] for i = the number of words already there. -/
def nextWord (nk : Nat) (w : List Column) : Column :=
  let i := w.length
  let t := wordAt w (i - 1)
  let t' :=
    if i % nk = 0 then (subWord (rotWord t)).xor ⟨rcon (i / nk), 0, 0, 0⟩
    else if nk = 8 ∧ i % nk = 4 then subWord t
    else t
  (wordAt w (i - nk)).xor t'

/-- R156: the expansion loop, for n more words. -/
def expandWords (nk : Nat) : Nat → List Column → List Column
  | 0, w => w
  | n + 1, w => expandWords nk n (w ++ [nextWord nk w])

/-- R156: the words W[0 .. 4(Nr+1)) of key k. -/
def keyWords (k : List Byte) : List Column :=
  expandWords (keyNk k) (4 * (keyNr k + 1) - keyNk k) ((List.range (keyNk k)).map (fun i => Column.ofBytes k (4 * i)))

/-- R155: AddRoundKey(S, i), with the column c of the round key W[4i + c]. -/
def addRoundKey (w : List Column) (i : Nat) (s : AesState) : AesState :=
  s.xor ⟨wordAt w (4 * i), wordAt w (4 * i + 1), wordAt w (4 * i + 2), wordAt w (4 * i + 3)⟩

/-- R157: one of the rounds 1 to Nr-1. -/
def encRound (w : List Column) (s : AesState) (i : Nat) : AesState := addRoundKey w i (mixColumns (shiftRows (subBytes s)))

/-- R158: one of the rounds Nr-1 down to 1. -/
def decRound (w : List Column) (i : Nat) (s : AesState) : AesState :=
  invMixColumns (addRoundKey w i (invSubBytes (invShiftRows s)))

/-- The round numbers 1 to Nr-1 in rising order. -/
def innerRounds (k : List Byte) : List Nat := List.range' 1 (keyNr k - 1)

/-- R157: AES_E(k, b). -/
def aesE (k b : List Byte) : List Byte :=
  let w := keyWords k
  let s := (innerRounds k).foldl (encRound w) (addRoundKey w 0 (AesState.ofBytes b))
  (addRoundKey w (keyNr k) (shiftRows (subBytes s))).bytes

/-- R158: AES_D(k, b). The right fold takes the round numbers from Nr-1 down to 1. -/
def aesD (k b : List Byte) : List Byte :=
  let w := keyWords k
  let s := (innerRounds k).foldr (decRound w) (addRoundKey w (keyNr k) (AesState.ofBytes b))
  (addRoundKey w 0 (invSubBytes (invShiftRows s))).bytes

/-- R162: CBC_E on the first n blocks of p, seeded with c. -/
def cbcEBlocks (k : List Byte) : Nat → List Byte → List Byte → List Byte
  | 0, _, _ => []
  | n + 1, c, p =>
    let c' := aesE k (xorBytes (p.take Config.blockLen) c)
    c' ++ cbcEBlocks k n c' (p.drop Config.blockLen)

/-- R162: CBC_E(k, iv, p). -/
def cbcE (k iv p : List Byte) : List Byte := cbcEBlocks k (p.length / Config.blockLen) iv p

/-- R163: CBC_D on the first n blocks of c, seeded with prev. -/
def cbcDBlocks (k : List Byte) : Nat → List Byte → List Byte → List Byte
  | 0, _, _ => []
  | n + 1, prev, c =>
    let cj := c.take Config.blockLen
    xorBytes (aesD k cj) prev ++ cbcDBlocks k n cj (c.drop Config.blockLen)

/-- R163: CBC_D(k, iv, c). -/
def cbcD (k iv c : List Byte) : List Byte := cbcDBlocks k (c.length / Config.blockLen) iv c

/-- R165: what ENC_BLOCK computes. -/
def encBlockResult (s : State) : Except ErrCode Outputs := do
  runChecks .encBlock s
  check (s.inLen.toNat == Config.blockLen) .crypto
  .ok { bytes := some (aesE s.kenc s.inBytes) }

/-- R165: ENC_BLOCK. -/
def execEncBlock (s : State) : Host.Outcome State Fault Refusal := .next (s.complete (encBlockResult s))

/-- R167: what DEC_BLOCK computes. -/
def decBlockResult (s : State) : Except ErrCode Outputs := do
  runChecks .decBlock s
  check (s.inLen.toNat == Config.blockLen) .crypto
  .ok { bytes := some (aesD s.kenc s.inBytes) }

/-- R167: DEC_BLOCK. -/
def execDecBlock (s : State) : Host.Outcome State Fault Refusal := .next (s.complete (decBlockResult s))

end Sys2Proof.Machine
end

