-- ==== Sys2Proof/Machine/Padding.lean ====
section
/-! DEFINITION. The Padding Transform (40_padding.md): Pad, Unpad and the command PAD. -/

namespace Sys2Proof.Machine

/-- R140: ISO/IEC 9797-1 Method 2 padding, in the closed form the rule gives. -/
def pad (s : List Byte) : List Byte := s ++ 0x80 :: zeros (15 - s.length % Config.blockLen)

/-- R142: the scan of Unpad, over the bytes in reverse order, for at most the given number of bytes. The bytes before the
0x80 are the result. -/
def unpadScan : Nat → List Byte → Option (List Byte)
  | 0, _ => none
  | _ + 1, [] => none
  | k + 1, b :: rest => if b = 0x80 then some rest.reverse else if b ≠ 0 then none else unpadScan k rest

/-- R142: the padding strip; none is FAIL. -/
def unpad (s : List Byte) : Option (List Byte) := unpadScan Config.padScanLimit s.reverse

/-- R141: what PAD computes. -/
def padResult (s : State) : Except ErrCode Outputs := do
  runChecks .pad s
  let p := pad s.inBytes
  check (decide (p.length ≤ Config.outCap)) .length
  .ok { bytes := some p }

/-- R141: PAD. -/
def execPad (s : State) : Host.Outcome State Fault Refusal := .next (s.complete (padResult s))

end Sys2Proof.Machine
end

