-- ==== Sys2Proof/Machine/IvAndData.lean ====
section
/-! DEFINITION. The Counter-Derived IV unit and chained data encryption (42_iv_and_data.md): IVBLOCK, DeriveIV, EncData,
DecData, and the commands DERIVE_IV, ENC_DATA and DEC_DATA. -/

namespace Sys2Proof.Machine

/-- R190: the counter block be_16(ssc). -/
def ivBlock (ssc : BitVec 64) : List Byte := be 16 ssc.toNat

/-- R191. -/
def deriveIv (kenc : List Byte) (ssc : BitVec 64) : List Byte := aesE kenc (ivBlock ssc)

/-- R193. -/
def encData (kenc : List Byte) (ssc : BitVec 64) (d : List Byte) : List Byte := cbcE kenc (deriveIv kenc ssc) (pad d)

/-- R194: a plaintext, or CRYPTO for a length that is no positive multiple of 16, or AUTH for a padding failure. -/
def decData (kenc : List Byte) (ssc : BitVec 64) (c : List Byte) : Except ErrCode (List Byte) := do
  check (decide (Config.blockLen ≤ c.length) && c.length % Config.blockLen == 0) .crypto
  match unpad (cbcD kenc (deriveIv kenc ssc) c) with
  | some d => .ok d
  | none => .error .auth

/-- R192: what DERIVE_IV computes. -/
def deriveIvResult (s : State) : Except ErrCode Outputs := do
  runChecks .deriveIv s
  .ok { bytes := some (deriveIv s.kenc s.ssc) }

/-- R192: DERIVE_IV. -/
def execDeriveIv (s : State) : Host.Outcome State Fault Refusal := .next (s.complete (deriveIvResult s))

/-- R195: what ENC_DATA computes. -/
def encDataResult (s : State) : Except ErrCode Outputs := do
  runChecks .encData s
  check (decide (16 * (s.inLen.toNat / 16 + 1) ≤ Config.outCap)) .length
  .ok { bytes := some (encData s.kenc s.ssc s.inBytes) }

/-- R195: ENC_DATA. -/
def execEncData (s : State) : Host.Outcome State Fault Refusal := .next (s.complete (encDataResult s))

/-- R198: what DEC_DATA computes. -/
def decDataResult (s : State) : Except ErrCode Outputs := do
  runChecks .decData s
  let d ← decData s.kenc s.ssc s.inBytes
  .ok { bytes := some d }

/-- R198: DEC_DATA. -/
def execDecData (s : State) : Host.Outcome State Fault Refusal := .next (s.complete (decDataResult s))

end Sys2Proof.Machine
end

