-- ==== Sys2Proof/Machine/Mac.lean ====
section
/-! DEFINITION. The MAC Engine (43_mac.md): AES-CMAC, its 8-byte form, and the commands COMPUTE_MAC and VERIFY_MAC. -/

namespace Sys2Proof.Machine

/-- R210: doubling of a 16-byte string as a 128-bit number, with 0x87 folded in when its top bit was 1. -/
def dbl (x : List Byte) : List Byte :=
  be 16 (((intOf x <<< 1) % 2 ^ 128) ^^^ (if (byteAt x 0).getLsbD 7 then 0x87 else 0))

/-- R210: L. -/
def cmacL (k : List Byte) : List Byte := aesE k (zeros 16)

/-- R210: the subkey K1. -/
def cmacK1 (k : List Byte) : List Byte := dbl (cmacL k)

/-- R210: the subkey K2, which the engine never uses (R212). -/
def cmacK2 (k : List Byte) : List Byte := dbl (cmacK1 k)

/-- R211: the chaining C_i = AES_E(k, C_{i-1} XOR B_i) over a list of blocks. -/
def cmacChain (k : List Byte) : List Byte → List (List Byte) → List Byte
  | c, [] => c
  | c, b :: bs => cmacChain k (aesE k (xorBytes c b)) bs

/-- R211, R212: the first n blocks of a message. -/
def blocksOf : Nat → List Byte → List (List Byte)
  | 0, _ => []
  | n + 1, m => m.take Config.blockLen :: blocksOf n (m.drop Config.blockLen)

/-- R211: the last block, as the general CMAC enters it: whole, under K1, or else padded, under K2. -/
def cmacLast (k m : List Byte) (last : List Byte) : List Byte :=
  if 0 < m.length ∧ m.length % 16 = 0 then xorBytes last (cmacK1 k)
  else xorBytes (last ++ 0x80 :: zeros (15 - last.length)) (cmacK2 k)

/-- R211: the number of blocks n = max(1, ceil(len(M)/16)). -/
def cmacCount (m : List Byte) : Nat := max 1 ((m.length + 15) / 16)

/-- R211: the general CMAC of a message, 16 bytes. The engine computes only the form of R212; this is the definition R212
is compared with. -/
def cmac (k m : List Byte) : List Byte :=
  let n := cmacCount m
  let bs := blocksOf n m
  cmacChain k (zeros 16) (bs.dropLast ++ [cmacLast k m (bs.getLastD [])])

/-- R212: the loop over the n blocks of P, K1 entering at the last one. -/
def cmac8Blocks (k : List Byte) : Nat → List Byte → List Byte → List Byte
  | 0, c, _ => c
  | n + 1, c, p =>
    let b := p.take Config.blockLen
    let b' := if n = 0 then xorBytes b (cmacK1 k) else b
    cmac8Blocks k n (aesE k (xorBytes c b')) (p.drop Config.blockLen)

/-- R212: CMAC8(k, P), for P a nonempty multiple of 16 bytes. -/
def cmac8 (k p : List Byte) : List Byte := (cmac8Blocks k (p.length / 16) (zeros 16) p).take Config.macLen

/-- R213: MAC(kmac, m) = CMAC8(kmac, Pad(m)). -/
def mac (kmac m : List Byte) : List Byte := cmac8 kmac (pad m)

/-- R215: VerifyMAC(kmac, m, t). -/
def verifyMac (kmac m t : List Byte) : Bool := mac kmac m == t

/-- R214: what COMPUTE_MAC computes. -/
def computeMacResult (s : State) : Except ErrCode Outputs := do
  runChecks .computeMac s
  .ok { bytes := some (mac s.kmac s.inBytes) }

/-- R214: COMPUTE_MAC. -/
def execComputeMac (s : State) : Host.Outcome State Fault Refusal := .next (s.complete (computeMacResult s))

/-- R216: what VERIFY_MAC computes. A mismatch is no error. -/
def verifyMacResult (s : State) : Except ErrCode Outputs := do
  runChecks .verifyMac s
  .ok { matched := some (verifyMac s.kmac s.inBytes s.tag) }

/-- R216: VERIFY_MAC. -/
def execVerifyMac (s : State) : Host.Outcome State Fault Refusal := .next (s.complete (verifyMacResult s))

end Sys2Proof.Machine
end

