-- ==== Sys2Proof/Machine/Apdu.lean ====
section
/-! DEFINITION. The TLV/APDU Assembler and Parser (44_apdu.md; the grammar of 30_encoding.md R117 to R120): the commands
PREPARE and UNWRAP. -/

namespace Sys2Proof.Machine

/-- R119, R230: CLA' = (CLA & 0xF3) | 0x0C, for every CLA. -/
def secureCla (cla : Byte) : Byte := (cla &&& 0xF3) ||| 0x0C

/-- R230: the protected header; INS, P1 and P2 are copied. -/
def protectedHeader (header : List Byte) : List Byte :=
  [secureCla (byteAt header 0), byteAt header 1, byteAt header 2, byteAt header 3]

/-- A length as the one byte that holds it (R25: it has been checked to fit). -/
def lenByte (n : Nat) : Byte := BitVec.ofNat 8 n

/-- R117, R232: a DO87 around a ciphertext. -/
def do87Of (ct : List Byte) : List Byte := [0x87, lenByte (1 + ct.length), Config.do87Indicator] ++ ct

/-- R231, R232: DO87, empty when data is absent, ENCODING when its length would not be below 0x80. -/
def buildDo87 (kenc : List Byte) (ssc : BitVec 64) : Option (List Byte) → Except ErrCode (List Byte)
  | none => .ok []
  | some d => do
    let ct := encData kenc ssc d
    check (decide (1 + ct.length < 0x80)) .encoding
    .ok (do87Of ct)

/-- R233: DO97, empty when le is absent. -/
def buildDo97 : Option (List Byte) → List Byte
  | none => []
  | some le => [0x97, lenByte le.length] ++ le

/-- R233: DO8E around a tag. -/
def do8eOf (tag : List Byte) : List Byte := [0x8E, 0x08] ++ tag

/-- R234: the command MAC input, with the 16-byte counter block (90_conflicts.md C1). -/
def commandMacInput (ssc : BitVec 64) (ph do87 do97 : List Byte) : List Byte := ivBlock ssc ++ pad ph ++ do87 ++ do97

/-- R233, R235: the protected command from its parts; ENCODING when the body is longer than 255. -/
def assemble (kmac : List Byte) (ssc : BitVec 64) (ph do87 do97 : List Byte) : Except ErrCode (List Byte) := do
  let body := do87 ++ do97 ++ do8eOf (mac kmac (commandMacInput ssc ph do87 do97))
  check (decide (body.length ≤ 255)) .encoding
  .ok (ph ++ [lenByte body.length] ++ body ++ [0x00])

/-- R235, R237: the protected command as a function of the keys, the counter, the header, the data and le. -/
def prepare (kenc kmac : List Byte) (ssc : BitVec 64) (header : List Byte) (data le : Option (List Byte)) :
    Except ErrCode (List Byte) := do
  let do87 ← buildDo87 kenc ssc data
  assemble kmac ssc (protectedHeader header) do87 (buildDo97 le)

/-- R235: what PREPARE computes. -/
def prepareResult (s : State) : Except ErrCode Outputs := do
  runChecks .prepare s
  let r ← prepare s.kenc s.kmac s.ssc s.header s.data s.le
  .ok { bytes := some r }

/-- R235: PREPARE. -/
def execPrepare (s : State) : Host.Outcome State Fault Refusal := .next (s.complete (prepareResult s))

/-- R243, the first part: the DO87 at the start of a response (empty when it does not start with 0x87) and the index after
it. -/
def parseDo87 (r : List Byte) : Except ErrCode (List Byte × Nat) :=
  if 0 < r.length ∧ byteAt r 0 = 0x87 then do
    check (decide (2 ≤ r.length)) .auth
    let l := (byteAt r 1).toNat
    check (decide (1 ≤ l) && decide (l ≤ 0x7F) && decide (2 + l ≤ r.length)) .auth
    check (byteAt r 2 == Config.do87Indicator) .auth
    .ok (slice r 0 (2 + l), 2 + l)
  else .ok ([], 0)

/-- R243: the parse of a response into (do87, do99, tag). -/
def parseResponse (r : List Byte) : Except ErrCode (List Byte × List Byte × List Byte) := do
  let (do87, i) ← parseDo87 r
  check (decide (i + 4 ≤ r.length) && byteAt r i == 0x99 && byteAt r (i + 1) == 0x02) .auth
  let do99 := slice r i (i + 4)
  let j := i + 4
  check (j + 10 == r.length && byteAt r j == 0x8E && byteAt r (j + 1) == 0x08) .auth
  .ok (do87, do99, slice r (j + 2) (j + 10))

/-- R244: the response MAC input. -/
def responseMacInput (ssc : BitVec 64) (do87 do99 : List Byte) : List Byte := ivBlock ssc ++ do87 ++ do99

/-- R245: the plaintext of a response's DO87, empty when there is none. -/
def do87Plain (kenc : List Byte) (ssc : BitVec 64) (do87 : List Byte) : Except ErrCode (List Byte) :=
  if do87 ≠ [] then decData kenc ssc (slice do87 3 do87.length) else .ok []

/-- R43, R245: SW1 << 8 | SW2 of a DO99. -/
def statusWord (do99 : List Byte) : BitVec 16 := byteAt do99 2 ++ byteAt do99 3

/-- R245: what UNWRAP computes. The MAC is verified before any decryption. -/
def unwrapResult (s : State) : Except ErrCode Outputs := do
  runChecks .unwrap s
  let (do87, do99, tag) ← parseResponse s.inBytes
  check (verifyMac s.kmac (responseMacInput s.ssc do87 do99) tag) .auth
  let d ← do87Plain s.kenc s.ssc do87
  .ok { bytes := some d, sw := some (statusWord do99), do87Seen := some (do87 != []) }

/-- R245: UNWRAP. -/
def execUnwrap (s : State) : Host.Outcome State Fault Refusal := .next (s.complete (unwrapResult s))

end Sys2Proof.Machine
end

