-- ==== Sys2Proof/Machine/Dispatch.lean ====
section
/-! DEFINITION. One arm per command: the completion step of the command in flight (60_exceptions.md R275, "Exec"). -/

namespace Sys2Proof.Machine

def exec (i : Instr) (s : State) : Host.Outcome State Fault Refusal :=
  match i with
  | .pad => Sys2Proof.Machine.execPad s
  | .deriveIv => Sys2Proof.Machine.execDeriveIv s
  | .encData => Sys2Proof.Machine.execEncData s
  | .decData => Sys2Proof.Machine.execDecData s
  | .computeMac => Sys2Proof.Machine.execComputeMac s
  | .verifyMac => Sys2Proof.Machine.execVerifyMac s
  | .prepare => Sys2Proof.Machine.execPrepare s
  | .unwrap => Sys2Proof.Machine.execUnwrap s
  | .encBlock => Sys2Proof.Machine.execEncBlock s
  | .decBlock => Sys2Proof.Machine.execDecBlock s

end Sys2Proof.Machine
end

