-- ==== Sys2Proof/Machine/Step.lean ====
section
/-! DEFINITION. One step of the machine: the completion of the command in flight when the engine is due (60_exceptions.md
R275), else the next input of the outside world (20_memory.md R90), else nothing (R302, R312). -/

namespace Sys2Proof.Machine

/-- R93, R115, R275: the engine completes the command latched in CMD; a word that is no command completes with
ILLEGAL_CMD. -/
def engineStep (s : State) : Host.Outcome State Fault Refusal :=
  match decode s.cmd with
  | .ok i => exec i s
  | .error _ => execIllegal s

/-- One step. Host accesses and the completion interleave as R90 says. -/
def step (s : State) : Host.Outcome State Fault Refusal :=
  if s.engineDue then engineStep s
  else
    match s.pending with
    | [] => .next s
    | i :: rest => .next ((s.takeInput rest).perform i)

/-- The state in which the host has just issued the table's word and the engine is due, so that the next step runs exactly
it: SM-CORE fetches its command from CMD, at its issue (R31, R93; log 15). -/
def State.withFetchWord (s : State) (nbits w : Nat) : State := { s.issue (tableWord nbits w) with countdown := 0 }

end Sys2Proof.Machine
end

