-- ==== Sys2Proof/Machine/HostProgram.lean ====
section
/-! DEFINITION. The host side: the program notation (30_encoding.md R121, R122) as the list of bus accesses a program makes,
the boot writes (70_reset_and_hazards.md R313), and the counter discipline (R322). Control flow is the host's own; a list
holds the accesses one run of it makes. -/

namespace Sys2Proof.Machine

/-- R121: wr OFF, V. -/
def wr (r : Reg) (v : Word) : Input := .write .word (offsetOf r) v

/-- R121: rd OFF -> x. -/
def rd (r : Reg) : Input := .read .word (offsetOf r)

/-- R121: cmd MNEMONIC. -/
def cmdOf (i : Instr) : Input := wr .cmd (encode i)

/-- R122: wait, as the number of STATUS reads it makes. -/
def wait (reads : Nat) : List Input := List.replicate reads (rd .status)

/-- R122: the words of a byte string, bytes past its end 0. -/
def wordsOf (h : List Byte) : List Word := (List.range ((h.length + 3) / 4)).map (fun j => ofLanes (h.drop (4 * j)))

/-- R122: wrbytes BASE, h, with BASE a window offset. -/
def wrbytes (base : Nat) (h : List Byte) : List Input :=
  (List.range ((h.length + 3) / 4)).map
    (fun j => .write .word (BitVec.ofNat 12 (base + 4 * j)) (ofLanes (h.drop (4 * j))))

/-- R122: the accesses of rdbytes BASE, n -> h. -/
def rdbytes (base n : Nat) : List Input :=
  (List.range ((n + 3) / 4)).map (fun j => .read .word (BitVec.ofNat 12 (base + 4 * j)))

/-- R122: the string rdbytes gets from the words read: their lanes in order, cut to n bytes. -/
def rdbytesResult (n : Nat) (ws : List Word) : List Byte := (ws.map lanes).flatten.take n

/-- R122: setkeys L, ke, km. -/
def setkeys (l : Nat) (ke km : List Byte) : List Input :=
  wrbytes Config.kencBase ke ++ wrbytes Config.kmacBase km ++ [wr .kcfg (BitVec.ofNat 32 (l ||| l <<< 8))]

/-- R122: setssc v. -/
def setssc (v : BitVec 64) : List Input := [wr .sscLo (v.extractLsb' 0 32), wr .sscHi (v.extractLsb' 32 32)]

/-- R122: clrdone. -/
def clrdone : Input := wr .status 0x2

/-- R313: the boot writes after a reset, with the optional interrupt enable. -/
def boot (l : Nat) (ke km : List Byte) (ssc : BitVec 64) (useIrq : Bool) : List Input :=
  setkeys l ke km ++ setssc ssc ++ (if useIrq then [wr .ctrl 0x2] else [])

/-- R324: re-establishing the channel after a session-fatal error: a soft reset, then the boot writes with the new
session's keys. -/
def reestablish (l : Nat) (ke km : List Byte) (ssc : BitVec 64) (useIrq : Bool) : List Input :=
  wr .ctrl 0x1 :: boot l ke km ssc useIrq

/-- R322: the host's counter discipline, a parameter of the host (log 9). -/
inductive SscPolicy
  | incrPerMessage
  | samePerPair
  deriving DecidableEq, Repr

/-- R322: the default. -/
def defaultSscPolicy : SscPolicy := .incrPerMessage

/-- R322: the counter of the command and of its response in the exchange after counter value ssc; none when the counter
would wrap past 2^64 − 1, which the host must never let happen. -/
def exchangeCounters (p : SscPolicy) (ssc : Nat) : Option (Nat × Nat) :=
  match p with
  | .incrPerMessage => if ssc + 2 < 2 ^ 64 then some (ssc + 1, ssc + 2) else none
  | .samePerPair => if ssc + 1 < 2 ^ 64 then some (ssc + 1, ssc + 1) else none

/-- R314, R322: the command half of an exchange: the counter, the plain command's inputs, the issue, the polls. -/
def prepareAccesses (ssc : BitVec 64) (hdr opt : Word) (data : List Byte) (reads : Nat) : List Input :=
  setssc ssc ++ wrbytes Config.inBase data ++
    [wr .hdr hdr, wr .inLen (BitVec.ofNat 32 data.length), wr .opt opt, cmdOf .prepare] ++ wait reads

/-- R314, R322: the response half of an exchange. -/
def unwrapAccesses (ssc : BitVec 64) (response : List Byte) (reads : Nat) : List Input :=
  setssc ssc ++ wrbytes Config.inBase response ++
    [wr .inLen (BitVec.ofNat 32 response.length), cmdOf .unwrap] ++ wait reads

end Sys2Proof.Machine
end

