-- ==== Sys2Proof/Machine/Platform.lean ====
section
/-! DEFINITION. Several instances on one platform (00_scope.md R15, 20_memory.md R80, R95, 60_exceptions.md R300): each has
its own state; an access reaches one instance by its address; their steps interleave freely. -/

namespace Sys2Proof.Machine

/-- The instances of a platform. -/
structure Platform where
  instances : List State
  deriving DecidableEq, Repr

/-- R15, R300, R310: every instance comes out of reset on its own. Each counts its own issues from 0, and all draw on the one
Config.latency (log 2, log 8: DESIGN CHOICE). -/
def Platform.reset : Platform := { instances := List.replicate Config.nInstances State.reset }

/-- R80: the platform address is in the window whose base is b. -/
def inWindow (b addr : Nat) : Bool := decide (b ≤ addr) && decide (addr < b + Config.windowSize)

/-- R80: the instance, among the first n, whose window holds a platform address, and the offset in it. Where windows
overlapped, the platform's own doing, the lowest number is taken (log 8). -/
def instanceAt (n addr : Nat) : Option (Nat × BitVec 12) :=
  match (List.range n).find? (fun k => inWindow (Config.base k) addr) with
  | some k => some (k, BitVec.ofNat 12 (addr - Config.base k))
  | none => none

/-- An input arrives at instance k, behind those that wait there. -/
def Platform.deliver (p : Platform) (k : Nat) (i : Input) : Platform :=
  { instances := p.instances.modify k (fun s => { s with pending := s.pending ++ [i] }) }

/-- A host read at a platform address. -/
def Platform.readAt (p : Platform) (width : Width) (addr : Nat) : Platform :=
  match instanceAt p.instances.length addr with
  | some (k, off) => p.deliver k (.read width off)
  | none => p

/-- A host write at a platform address. -/
def Platform.writeAt (p : Platform) (width : Width) (addr : Nat) (v : Word) : Platform :=
  match instanceAt p.instances.length addr with
  | some (k, off) => p.deliver k (.write width off v)
  | none => p

/-- R95: instance k takes a step of its own; the others do not move. -/
def Platform.stepAt (p : Platform) (k : Nat) : Host.Outcome Platform Fault Refusal :=
  match p.instances[k]? with
  | none => .next p
  | some s =>
    match step s with
    | .next s' => .next { instances := p.instances.set k s' }
    | .fault r => .fault r
    | .refused r => .refused r

/-- R88, R285: the interrupt lines, one per instance. -/
def Platform.irqs (p : Platform) : List Bool := p.instances.map State.irq

end Sys2Proof.Machine
end

