-- ==== Sys2Proof/Safety.lean ====
section
/-! DEFINITION. What counts as a safe run, in the terms the claims use: the invariant every step keeps, the observable
result and the end of a command (70_reset_and_hazards.md R315), and what a completion leaves unchanged (60_exceptions.md
R276, R277). -/

namespace Sys2Proof.Machine

/-- R46 to R49: the offset of a byte that the byte memory holds: KENC, KMAC, IN_BUF or OUT_BUF. -/
abbrev bufferOffset (a : Nat) : Prop := (0x040 ≤ a ∧ a < 0x080) ∨ (0x100 ≤ a ∧ a < 0x300)

/-- R49: the offset of an OUT_BUF byte. -/
abbrev outOffset (a : Nat) : Prop := Config.outBase ≤ a ∧ a < Config.outBase + Config.outCap

/-- R274: every output as an issue leaves it: OUT_BUF, OUT_LEN, SW and RESULT zero. -/
def OutputsClear (s : State) : Prop :=
  s.outLen = 0 ∧ s.sw = 0 ∧ s.result = Result.cleared ∧ ∀ a, outOffset a → s.mem.read a = 0

/-- The invariant of the machine: the memory is canonical and holds only buffer bytes; OUT_LEN is at most 256 and OUT_BUF is
0 past it (R42, R49); while a command is in flight DONE and ERR are clear and so are the outputs (R87, R274); after an error
the outputs are clear (R276); an AUTH error has latched LOCKED (R278). -/
structure Inv (s : State) : Prop where
  memWf : Memory.wf s.mem
  memMapped : ∀ c ∈ s.mem, bufferOffset c.1
  outLenBound : s.outLen.toNat ≤ Config.outCap
  outTail : ∀ a, outOffset a → Config.outBase + s.outLen.toNat ≤ a → s.mem.read a = 0
  busyClear : s.status.busy = true → s.status.done = false ∧ s.status.err = none ∧ OutputsClear s
  errClear : s.status.err ≠ none → OutputsClear s
  authLocked : s.status.err = some .auth → s.status.locked = true

/-- R315: what the host sees of a command that has ended. -/
structure Observable where
  err : Option ErrCode
  out : List Byte
  outLen : BitVec 9
  sw : BitVec 16
  result : Result
  locked : Bool
  deriving DecidableEq, Repr

/-- R315: (STATUS.ERR, OUT[0..OUT_LEN), OUT_LEN, SW, RESULT, STATUS.LOCKED). -/
def State.observable (s : State) : Observable :=
  { err := s.status.err
    out := s.mem.readBytes Config.outBase s.outLen.toNat
    outLen := s.outLen
    sw := s.sw
    result := s.result
    locked := s.status.locked }

/-- R310, R311: the input resets the instance: the reset input, or a CTRL write with SRST = 1. -/
def isReset : Input → Bool
  | .reset => true
  | .write .word off v => off == 0x004 && srst v
  | .write _ _ _ => false
  | .read _ _ => false

/-- The inputs a run of at most k steps performs, each with the state it was performed in. -/
def hostTrace : Nat → State → List (State × Input)
  | 0, _ => []
  | k + 1, s =>
    if s.engineDue then
      match engineStep s with
      | .next t => hostTrace k t
      | .fault _ => []
      | .refused _ => []
    else
      match s.pending with
      | [] => []
      | i :: rest => (s, i) :: hostTrace k ((s.takeInput rest).perform i)

/-- R315: the observable result of the command issued just before the trace: that of the first STATUS read that returns
BUSY = 0; none after a reset, or while there is no such read. -/
def commandEnd : List (State × Input) → Option Observable
  | [] => none
  | (s, i) :: rest =>
    if isReset i then none
    else if i == rd .status && !s.status.busy then some s.observable
    else commandEnd rest

/-- R276: everything a command never writes: every input register, and the model's own fields. -/
structure InputsKept (s t : State) : Prop where
  ctrl : t.ctrl = s.ctrl
  cmd : t.cmd = s.cmd
  kcfg : t.kcfg = s.kcfg
  sscLo : t.sscLo = s.sscLo
  sscHi : t.sscHi = s.sscHi
  hdr : t.hdr = s.hdr
  inLen : t.inLen = s.inLen
  opt : t.opt = s.opt
  tag0 : t.tag0 = s.tag0
  tag1 : t.tag1 = s.tag1
  pending : t.pending = s.pending
  responses : t.responses = s.responses
  issues : t.issues = s.issues
  countdown : t.countdown = s.countdown

/-- R275, R278: the STATUS a completion with this error leaves: BUSY 0, DONE 1, ERR the code, LOCKED latched by AUTH, WERR
as it was. -/
def StatusAfter (s t : State) (e : Option ErrCode) : Prop :=
  t.status.busy = false ∧ t.status.done = true ∧ t.status.err = e ∧ t.status.werr = s.status.werr ∧
    t.status.locked = (s.status.locked || e == some .auth)

/-- R276, R277: a completion with an error changes STATUS and nothing else. -/
structure EndsWithError (s t : State) (e : ErrCode) : Prop where
  inputs : InputsKept s t
  status : StatusAfter s t (some e)
  outLen : t.outLen = s.outLen
  sw : t.sw = s.sw
  result : t.result = s.result
  mem : ∀ a, t.mem.read a = s.mem.read a

/-- R277, R114: a successful completion whose output is a byte string in OUT, with OUT_LEN: of memory it changes exactly
OUT[0..len). -/
structure EndsWithBytes (s t : State) (bs : List Byte) : Prop where
  inputs : InputsKept s t
  status : StatusAfter s t none
  outLen : t.outLen.toNat = bs.length
  sw : t.sw = s.sw
  result : t.result = s.result
  mem : ∀ a, t.mem.read a =
    if Config.outBase ≤ a ∧ a < Config.outBase + bs.length then byteAt bs (a - Config.outBase) else s.mem.read a

/-- R216, R277: a successful VERIFY_MAC writes RESULT.MATCH and STATUS and nothing else. -/
structure EndsWithMatch (s t : State) (b : Bool) : Prop where
  inputs : InputsKept s t
  status : StatusAfter s t none
  outLen : t.outLen = s.outLen
  sw : t.sw = s.sw
  matched : t.result.matched = b
  do87Seen : t.result.do87Seen = s.result.do87Seen
  mem : ∀ a, t.mem.read a = s.mem.read a

/-- R245, R277: a successful UNWRAP writes OUT[0..len), OUT_LEN, SW, RESULT.DO87_SEEN and STATUS and nothing else. -/
structure EndsWithPlain (s t : State) (bs : List Byte) (sw : BitVec 16) (seen : Bool) : Prop where
  inputs : InputsKept s t
  status : StatusAfter s t none
  outLen : t.outLen.toNat = bs.length
  sw : t.sw = sw
  matched : t.result.matched = s.result.matched
  do87Seen : t.result.do87Seen = seen
  mem : ∀ a, t.mem.read a =
    if Config.outBase ≤ a ∧ a < Config.outBase + bs.length then byteAt bs (a - Config.outBase) else s.mem.read a

/-- R115: the word is no command: RSVD is not zero, or OPCODE is 0x00 or above 0x0A. -/
def IllegalWord (w : Word) : Prop := w.toNat / 256 ≠ 0 ∨ w.toNat % 256 = 0 ∨ 10 < w.toNat % 256

/-- The encoding clause of a command's rule: the engine performs the command when CMD holds this word, and a word with the
same OPCODE and RSVD ≠ 0 completes with ILLEGAL_CMD (R112, R115). -/
def RunsAs (w : Word) (i : Instr) : Prop :=
  (∀ s : State, s.engineDue = true → s.cmd = w → step s = exec i s) ∧
    ∀ s : State, s.engineDue = true → s.cmd.toNat % 256 = w.toNat % 256 → s.cmd.toNat / 256 ≠ 0 →
      ∃ t, step s = .next t ∧ EndsWithError s t .illegalCmd

/-- R161: KENC_LEN is 16, 24 or 32 and KMAC_LEN equals it. -/
def KeysAccepted (s : State) : Prop :=
  (s.kcfg.kencLen.toNat = 16 ∨ s.kcfg.kencLen.toNat = 24 ∨ s.kcfg.kencLen.toNat = 32) ∧ s.kcfg.kmacLen = s.kcfg.kencLen

/-- The state a keyed command that reads IN gets past the shared checks in (R272, R161). -/
def ReadyWithInput (s : State) : Prop := s.status.locked = false ∧ s.inLen.toNat ≤ 256 ∧ KeysAccepted s

/-- The first three error clauses of a keyed command that always reads IN, in the order of R273. -/
def SharedErrors (s t : State) : Prop :=
  (s.status.locked = true → EndsWithError s t .locked) ∧
    (s.status.locked = false → 256 < s.inLen.toNat → EndsWithError s t .length) ∧
      (s.status.locked = false → s.inLen.toNat ≤ 256 → ¬KeysAccepted s → EndsWithError s t .crypto)

/-- R272: the command reads IN in this state. -/
def ReadsInput (i : Instr) (s : State) : Prop := i ≠ .deriveIv ∧ (i = .prepare → s.opt.dataPresent = true)

/-- R84, R50: the bus rejects the access: not 32 bits wide, not 4-byte aligned, or at a reserved offset. -/
def BusRejects (width : Width) (off : BitVec 12) : Prop :=
  width ≠ .word ∨ off.toNat % 4 ≠ 0 ∨ off.toNat = 0x03C ∨ (0x080 ≤ off.toNat ∧ off.toNat < 0x100) ∨ 0x300 ≤ off.toNat

/-- R120, R243: r is the response with these parts: [DO87] DO99 DO8E, exact lengths, indicator 0x01. -/
def IsResponse (r do87 do99 tag : List Byte) : Prop :=
  r = do87 ++ do99 ++ ([0x8E, 0x08] ++ tag) ∧ tag.length = 8 ∧ (∃ sw1 sw2 : Byte, do99 = [0x99, 0x02, sw1, sw2]) ∧
    (do87 = [] ∨ ∃ ct : List Byte, ct.length ≤ 126 ∧ do87 = [0x87, lenByte (1 + ct.length), 0x01] ++ ct)

/-- R232: the DO87 of a plain command. -/
def commandDo87 (s : State) : List Byte :=
  if s.opt.dataPresent then
    let ct := cbcE s.kenc (aesE s.kenc (be 16 s.ssc.toNat)) (pad s.inBytes)
    [0x87, lenByte (1 + ct.length), 0x01] ++ ct
  else []

/-- R233: the DO97 of a plain command. -/
def commandDo97 (s : State) : List Byte :=
  if s.opt.lePresent then (if s.opt.leLen = 1 then [0x97, 0x01, s.opt.leVal] else [0x97, 0x00]) else []

/-- R230 to R235: the protected command, with every part written out. -/
def protectedCommand (s : State) : List Byte :=
  let ph := [(lane s.hdr 0 &&& 0xF3) ||| 0x0C, lane s.hdr 1, lane s.hdr 2, lane s.hdr 3]
  let tag := mac s.kmac (be 16 s.ssc.toNat ++ pad ph ++ commandDo87 s ++ commandDo97 s)
  let body := commandDo87 s ++ commandDo97 s ++ [0x8E, 0x08] ++ tag
  ph ++ [lenByte body.length] ++ body ++ [0x00]

/-- R246: the DO87 the card side builds around a plaintext. -/
def cardDo87 (s : State) (d : List Byte) : List Byte :=
  let ct := encData s.kenc s.ssc d
  [0x87, lenByte (1 + ct.length), 0x01] ++ ct

/-- R246: the response the card side builds. -/
def cardResponse (s : State) (d : List Byte) (sw1 sw2 : Byte) : List Byte :=
  cardDo87 s d ++ [0x99, 0x02, sw1, sw2] ++
    ([0x8E, 0x08] ++ mac s.kmac (be 16 s.ssc.toNat ++ cardDo87 s d ++ [0x99, 0x02, sw1, sw2]))

end Sys2Proof.Machine
end

