-- ==== Sys2Proof/Certificates/Slice0/Obligations.lean ====
section
/-! DEFINITION. The statements for the provers, by the files of spec/: encoding, bus and registers, issue and completion,
padding, block cipher, IV and data, MAC, APDU, lock and interrupt, reset, instances, and the machine as a whole. -/

open Sys2Proof Sys2Proof.Machine

/-! ### Encoding (30_encoding.md) -/

/-- A word decodes to a command exactly when it is the command's word (R110 to R112). That a command's four bytes in lane order
(R81) decode to it and leave the rest is the model's choice (log 20: R110 gives no byte form). -/
def Obligations.DecodeAndEncodeAgree : Prop :=
  (∀ (i : Instr) (w : Word), decode w = .ok i ↔ w = encode i) ∧
    ∀ (i : Instr) (rest : List Byte), decodeBytes (lanes (encode i) ++ rest) = .ok (i, rest)

/-- R112: the ten words. -/
def Obligations.CommandWordsDecode : Prop :=
  decode 0x00000001 = .ok .pad ∧ decode 0x00000002 = .ok .deriveIv ∧ decode 0x00000003 = .ok .encData ∧
    decode 0x00000004 = .ok .decData ∧ decode 0x00000005 = .ok .computeMac ∧ decode 0x00000006 = .ok .verifyMac ∧
    decode 0x00000007 = .ok .prepare ∧ decode 0x00000008 = .ok .unwrap ∧ decode 0x00000009 = .ok .encBlock ∧
    decode 0x0000000A = .ok .decBlock

/-- R115: exactly the illegal words fail to decode; such a word is latched and issued, and completes with ILLEGAL_CMD and no
other effect. When the engine is due is the model's scheduling (log 2). -/
def Obligations.IllegalWordsCompleteWithIllegalCmd : Prop :=
  ∀ w : Word,
    (IllegalWord w ↔ ∃ e, decode w = .error e) ∧
      (IllegalWord w →
        (∀ s : State, s.status.busy = false →
          (s.perform (wr .cmd w)).cmd = w ∧ (s.perform (wr .cmd w)).status.busy = true) ∧
        ∀ s : State, s.engineDue = true → s.cmd = w → ∃ t, step s = .next t ∧ EndsWithError s t .illegalCmd)

/-! ### The step -/

/-- When a command is in flight and the engine is due, the step is exec of the command CMD holds; otherwise the step performs
the next input, with its access counted against the latency, or does nothing when there is none. The inputs and the scheduling
are the model's choice (log 1, log 2, log 3). -/
def Obligations.StepRunsDecodedCommandOrNextInput : Prop :=
  ∀ s : State,
    (∀ i : Instr, s.status.busy = true → (s.countdown = 0 ∨ s.pending = []) → decode s.cmd = .ok i → step s = exec i s) ∧
      (s.status.busy = false → s.pending = [] → step s = .next s) ∧
      (∀ i rest, s.status.busy = false → s.pending = i :: rest → step s = .next (State.perform { s with pending := rest } i)) ∧
      ∀ i rest, s.status.busy = true → 0 < s.countdown → s.pending = i :: rest →
        step s = .next (State.perform { s with pending := rest, countdown := s.countdown - 1 } i)

/-- R275: no step faults or is refused. -/
def Obligations.StepNeverStops : Prop := ∀ s : State, ∃ t, step s = .next t

/-- The invariant holds at reset. -/
def Obligations.InvariantHoldsAtReset : Prop := Inv State.reset

/-- Every step keeps the invariant. -/
def Obligations.StepKeepsTheInvariant : Prop := ∀ s t : State, Inv s → step s = .next t → Inv t

/-! ### The register bus (20_memory.md, 10_state.md) -/

/-- R84: a rejected access changes nothing but the response, and a rejected read returns 0; every other access is 32 bits wide
at a register's offset, and is answered without a bus error. R82: a read of any register, BUSY or not, answers its current word
and changes nothing. -/
def Obligations.RejectedAccessesChangeNothing : Prop :=
  ∀ (s : State) (width : Width) (off : BitVec 12) (v : Word),
    (BusRejects width off →
      s.perform (.read width off) = { s with responses := s.responses ++ [.readError 0] } ∧
        s.perform (.write width off v) = { s with responses := s.responses ++ [.writeError] }) ∧
      (¬BusRejects width off → width = .word ∧ ∃ r : Reg, off = offsetOf r ∧
        s.perform (.read width off) = { s with responses := s.responses ++ [.data (s.readReg r)] } ∧
          (s.perform (.write width off v)).responses = s.responses ++ [.written]) ∧
      ∀ r : Reg, off = offsetOf r → ¬BusRejects .word off ∧
        s.perform (.read .word off) = { s with responses := s.responses ++ [.data (s.readReg r)] }

/-- R86: the write gate. A rejected write gets a bus error; while BUSY = 1 a write to CTRL or STATUS takes effect and every
other accepted write is ignored and sets WERR; while BUSY = 0 an accepted write applies to its register. -/
def Obligations.WritesWhileBusyAreIgnored : Prop :=
  ∀ (s : State) (off : BitVec 12) (v : Word),
    (BusRejects .word off → s.perform (.write .word off v) = { s with responses := s.responses ++ [.writeError] }) ∧
      (s.status.busy = false → ∀ r : Reg, off = offsetOf r →
        s.perform (.write .word off v) = { s.applyWrite r v with responses := s.responses ++ [.written] }) ∧
      (s.status.busy = true → ¬BusRejects .word off → off ≠ 0x004 → off ≠ 0x008 →
        s.perform (.write .word off v) =
          { s with status := { s.status with werr := true }, responses := s.responses ++ [.written] }) ∧
      (v.getLsbD 0 = false →
        s.perform (.write .word 0x004 v) = { s with ctrl := { ie := v.getLsbD 1 }, responses := s.responses ++ [.written] }) ∧
        (v.getLsbD 0 = true →
          s.perform (.write .word 0x004 v) = { s.perform .reset with responses := s.responses ++ [.written] }) ∧
          s.perform (.write .word 0x008 v) =
            { s with
              status := { s.status with done := s.status.done && !v.getLsbD 1, werr := s.status.werr && !v.getLsbD 2 }
              responses := s.responses ++ [.written] }

/-- R33: ID reads 0x534D0100 in every state; a write to it is ignored, and while BUSY = 1 sets WERR. -/
def Obligations.IdIsConstant : Prop :=
  ∀ (s : State) (v : Word),
    s.perform (.read .word 0x000) = { s with responses := s.responses ++ [.data 0x534D0100] } ∧
      (s.status.busy = false → s.perform (.write .word 0x000 v) = { s with responses := s.responses ++ [.written] }) ∧
        (s.status.busy = true →
          s.perform (.write .word 0x000 v) =
            { s with status := { s.status with werr := true }, responses := s.responses ++ [.written] })

/-- R35, R271: the bits of a STATUS read, with the seven error codes spelt out, and what a STATUS write changes, in every
state. -/
def Obligations.StatusBitsAndAcknowledge : Prop :=
  ∀ (s : State) (v : Word),
    (s.readReg .status).getLsbD 0 = s.status.busy ∧ (s.readReg .status).getLsbD 1 = s.status.done ∧
      (s.readReg .status).getLsbD 2 = s.status.werr ∧ (s.readReg .status).getLsbD 3 = s.status.locked ∧
      (s.readReg .status).extractLsb' 4 4 = 0 ∧ (s.readReg .status).extractLsb' 12 20 = 0 ∧
      (s.readReg .status).extractLsb' 8 4 =
        (match s.status.err with
          | none => 0
          | some .crypto => 1
          | some .encoding => 2
          | some .auth => 3
          | some .illegalCmd => 4
          | some .length => 5
          | some .locked => 6) ∧
      s.perform (wr .status v) =
        { s with
          status := { s.status with done := s.status.done && !v.getLsbD 1, werr := s.status.werr && !v.getLsbD 2 }
          responses := s.responses ++ [.written] }

/-- R34, R37, R38, R39, R40, R41, R45, R50: what the read-write registers read after a write while BUSY = 0: the written word
with its reserved bits 0. R85: such a write changes that register alone, and a write to OUT_LEN, SW or RESULT nothing. -/
def Obligations.WrittenRegistersReadBack : Prop :=
  ∀ (s : State) (v : Word), s.status.busy = false →
    ((v.getLsbD 0 = false → (s.writeReg .ctrl v).readReg .ctrl = v &&& 0x00000002) ∧
      (s.writeReg .kcfg v).readReg .kcfg = v &&& 0x00003F3F ∧
      (s.writeReg .sscLo v).readReg .sscLo = v ∧ (s.writeReg .sscHi v).readReg .sscHi = v ∧
      (s.writeReg .hdr v).readReg .hdr = v ∧ (s.writeReg .inLen v).readReg .inLen = v &&& 0x000001FF ∧
      (s.writeReg .opt v).readReg .opt = v &&& 0x0000FF07 ∧ (s.writeReg .tag0 v).readReg .tag0 = v ∧
      (s.writeReg .tag1 v).readReg .tag1 = v ∧ (s.writeReg .cmd v).readReg .cmd = v) ∧
    (s.writeReg .kcfg v = { s with kcfg := { kencLen := v.extractLsb' 0 6, kmacLen := v.extractLsb' 8 6 } } ∧
      s.writeReg .sscLo v = { s with sscLo := v } ∧ s.writeReg .sscHi v = { s with sscHi := v } ∧
      s.writeReg .hdr v = { s with hdr := v } ∧ s.writeReg .inLen v = { s with inLen := v.extractLsb' 0 9 } ∧
      s.writeReg .opt v =
        { s with
          opt := { dataPresent := v.getLsbD 0, lePresent := v.getLsbD 1, leLen := v.extractLsb' 2 1,
                   leVal := v.extractLsb' 8 8 } } ∧
      s.writeReg .tag0 v = { s with tag0 := v } ∧ s.writeReg .tag1 v = { s with tag1 := v }) ∧
    (∀ r r' : Reg, (r = .kcfg ∨ r = .sscLo ∨ r = .sscHi ∨ r = .hdr ∨ r = .inLen ∨ r = .opt ∨ r = .tag0 ∨ r = .tag1) →
      r' ≠ r → (s.writeReg r v).readReg r' = s.readReg r') ∧
    s.writeReg .outLen v = s ∧ s.writeReg .sw v = s ∧ s.writeReg .result v = s

/-- R81, R82: a word written to IN_BUF, KENC or KMAC while BUSY = 0 sets the four bytes of its lanes and no other byte; IN_BUF
reads back, the keys read 0, and a write to OUT_BUF is ignored. R85: such a write changes the byte memory alone, and leaves
every other register and buffer word reading as before. -/
def Obligations.BufferWordsSetTheirLanes : Prop :=
  ∀ (s : State) (v : Word), s.status.busy = false →
    (∀ (j : Fin 64) (a : Nat), (s.writeReg (.inBuf j) v).mem.read a =
      if 0x100 + 4 * j.val ≤ a ∧ a < 0x100 + 4 * j.val + 4 then v.extractLsb' (8 * (a - (0x100 + 4 * j.val))) 8
      else s.mem.read a) ∧
      (∀ j : Fin 64, (s.writeReg (.inBuf j) v).readReg (.inBuf j) = v) ∧
      (∀ (j : Fin 8) (a : Nat), (s.writeReg (.kenc j) v).mem.read a =
        if 0x040 + 4 * j.val ≤ a ∧ a < 0x040 + 4 * j.val + 4 then v.extractLsb' (8 * (a - (0x040 + 4 * j.val))) 8
        else s.mem.read a) ∧
      (∀ (j : Fin 8) (a : Nat), (s.writeReg (.kmac j) v).mem.read a =
        if 0x060 + 4 * j.val ≤ a ∧ a < 0x060 + 4 * j.val + 4 then v.extractLsb' (8 * (a - (0x060 + 4 * j.val))) 8
        else s.mem.read a) ∧
      (∀ j : Fin 8, s.readReg (.kenc j) = 0 ∧ s.readReg (.kmac j) = 0) ∧
      (∀ j : Fin 64, s.writeReg (.outBuf j) v = s ∧
        ∀ i : Fin 4, (s.readReg (.outBuf j)).extractLsb' (8 * i.val) 8 = s.mem.read (0x200 + 4 * j.val + i.val)) ∧
      ∀ r : Reg, ((∃ j, r = .inBuf j) ∨ (∃ j, r = .kenc j) ∨ ∃ j, r = .kmac j) →
        s.writeReg r v = { s with mem := (s.writeReg r v).mem } ∧
          ∀ r' : Reg, r' ≠ r → (s.writeReg r v).readReg r' = s.readReg r'

/-- R46, R47, R89: no bus read depends on a key byte: two states that differ only in the bytes of KENC and KMAC answer every
read alike. -/
def Obligations.KeysCannotBeRead : Prop :=
  ∀ (s : State) (m : Memory) (width : Width) (off : BitVec 12),
    (∀ a, ¬(0x040 ≤ a ∧ a < 0x080) → m.read a = s.mem.read a) →
      State.readAnswer { s with mem := m } width off = s.readAnswer width off

/-- R87: a read while BUSY = 1 returns the register's current value and changes no register, and every output reads 0. The
premise is the invariant: in a state no run reaches the outputs of a busy machine could be anything. -/
def Obligations.OutputsReadZeroWhileBusy : Prop :=
  ∀ s : State, Inv s → s.status.busy = true →
    (∀ r : Reg, s.perform (rd r) = { s with responses := s.responses ++ [.data (s.readReg r)] }) ∧
    (∀ j : Fin 64, s.readReg (.outBuf j) = 0) ∧ s.readReg .outLen = 0 ∧ s.readReg .sw = 0 ∧ s.readReg .result = 0 ∧
      (s.readReg .status).extractLsb' 8 4 = 0

/-- R38, R39, R45, R46, R47, R48, R52: the operands of the commands, byte by byte. Beyond what these rules give, a KENC_LEN or
KMAC_LEN above 32 reads the bytes after the key register, and an IN_LEN above 256 those after IN_BUF: the model's choice (log
18), and no command uses such a string. -/
def Obligations.OperandsAreTheRegisterBytes : Prop :=
  ∀ s : State,
    s.inBytes.length = s.inLen.toNat ∧ (∀ i, i < s.inLen.toNat → byteAt s.inBytes i = s.mem.read (0x100 + i)) ∧
      s.kenc.length = s.kcfg.kencLen.toNat ∧ (∀ i, i < s.kcfg.kencLen.toNat → byteAt s.kenc i = s.mem.read (0x040 + i)) ∧
      s.kmac.length = s.kcfg.kmacLen.toNat ∧ (∀ i, i < s.kcfg.kmacLen.toNat → byteAt s.kmac i = s.mem.read (0x060 + i)) ∧
      s.ssc.toNat = s.sscHi.toNat * 2 ^ 32 + s.sscLo.toNat ∧
      (∀ i : Fin 4, byteAt s.header i.val = s.hdr.extractLsb' (8 * i.val) 8) ∧
      ∀ i : Fin 4, byteAt s.tag i.val = s.tag0.extractLsb' (8 * i.val) 8 ∧
        byteAt s.tag (4 + i.val) = s.tag1.extractLsb' (8 * i.val) 8

/-! ### Issue and completion (60_exceptions.md) -/

/-- R274: a CMD write while BUSY = 0 issues; while BUSY = 1 it is ignored and sets WERR. -/
def Obligations.CmdWriteIssues : Prop :=
  ∀ (s : State) (v : Word),
    (s.status.busy = false →
      let t := s.perform (wr .cmd v)
      t.cmd = v ∧ t.status = { s.status with busy := true, done := false, err := none } ∧
        (∀ a, t.mem.read a = if 0x200 ≤ a ∧ a < 0x300 then 0 else s.mem.read a) ∧ t.outLen = 0 ∧ t.sw = 0 ∧
        t.result = { matched := false, do87Seen := false } ∧ t.ctrl = s.ctrl ∧ t.kcfg = s.kcfg ∧ t.sscLo = s.sscLo ∧
        t.sscHi = s.sscHi ∧ t.hdr = s.hdr ∧ t.inLen = s.inLen ∧ t.opt = s.opt ∧ t.tag0 = s.tag0 ∧ t.tag1 = s.tag1) ∧
      (s.status.busy = true →
        s.perform (wr .cmd v) =
          { s with status := { s.status with werr := true }, responses := s.responses ++ [.written] })

/-- R275, R276, R277: every command, in every state, completes: it ends BUSY, sets DONE, latches LOCKED exactly on AUTH, and
changes no input register, no key byte and no IN_BUF byte; with an error it changes nothing but STATUS. -/
def Obligations.EveryCommandCompletesAndKeepsItsInputs : Prop :=
  ∀ (i : Instr) (s : State), ∃ t, exec i s = .next t ∧ InputsKept s t ∧ StatusAfter s t t.status.err ∧
    (∀ a, ¬(0x200 ≤ a ∧ a < 0x300) → t.mem.read a = s.mem.read a) ∧ ∀ e, t.status.err = some e → EndsWithError s t e

/-- R276: a command that ends with an error leaves every output zero, as the issue left it, and no command, successful or
not, changes the counter, a key byte or an input register. The invariant is the premise of the first part. -/
def Obligations.ErrorsLeaveNoOutput : Prop :=
  ∀ (s t : State), s.engineDue = true → step s = .next t →
    (Inv s → t.status.err ≠ none → OutputsClear t) ∧ InputsKept s t ∧
      ∀ a, ¬(0x200 ≤ a ∧ a < 0x300) → t.mem.read a = s.mem.read a

/-- R272: the common prelude and the key check, in order, for every command. -/
def Obligations.CommonPreludeComesFirst : Prop :=
  (∀ s : State, s.engineDue = true → IllegalWord s.cmd → ∃ t, step s = .next t ∧ EndsWithError s t .illegalCmd) ∧
    ∀ (i : Instr) (s : State), ∃ t, exec i s = .next t ∧
      (i ≠ .pad → s.status.locked = true → EndsWithError s t .locked) ∧
      (¬(i ≠ .pad ∧ s.status.locked = true) → ReadsInput i s → 256 < s.inLen.toNat → EndsWithError s t .length) ∧
      (i ≠ .pad → s.status.locked = false → ¬(ReadsInput i s ∧ 256 < s.inLen.toNat) → ¬KeysAccepted s →
        EndsWithError s t .crypto)

/-- R93: a command in flight cannot be changed: while BUSY = 1 every input but a reset keeps CMD and everything the command
reads; a reset aborts the command; no command writes CMD, IN_BUF, the keys or the configuration registers. -/
def Obligations.InFlightCommandIsFrozen : Prop :=
  (∀ (s : State) (i : Input), s.status.busy = true → isReset i = false →
    let t := s.perform i
    t.status.busy = true ∧ t.cmd = s.cmd ∧ t.kcfg = s.kcfg ∧ t.sscLo = s.sscLo ∧ t.sscHi = s.sscHi ∧ t.hdr = s.hdr ∧
      t.inLen = s.inLen ∧ t.opt = s.opt ∧ t.tag0 = s.tag0 ∧ t.tag1 = s.tag1 ∧ t.status.locked = s.status.locked ∧
      t.mem = s.mem ∧ t.countdown = s.countdown) ∧
    (∀ (s : State) (i : Input), isReset i = true →
      (s.perform i).status.busy = false ∧ (s.perform i).status.done = false ∧ (s.perform i).status.err = none) ∧
      ∀ (i : Instr) (s t : State), exec i s = .next t →
        t.cmd = s.cmd ∧ t.kcfg = s.kcfg ∧ t.hdr = s.hdr ∧ t.inLen = s.inLen ∧ t.opt = s.opt ∧
          ∀ a, 0x040 ≤ a → a < 0x200 → t.mem.read a = s.mem.read a

/-- R275, R330, L3 P5: when the engine completes does not matter to the result: from any state with a command in flight and
no reset among the inputs to come, within as many steps as there are inputs and one more, the command is complete, and its
observable result is that of completing it at once. The scheduling is the model's choice (log 1, log 2, log 3). -/
def Obligations.LatencyDoesNotChangeTheResult : Prop :=
  ∀ s : State, s.status.busy = true → (∀ i ∈ s.pending, isReset i = false) →
    ∃ (k : Nat) (u t : State), k ≤ s.pending.length + 1 ∧ Host.Core.run Sys2Proof.core k s = .next u ∧
      engineStep s = .next t ∧ u.status.busy = false ∧ u.status.done = true ∧ u.observable = t.observable

/-! ### The padding transform (40_padding.md) -/

/-- R143: the laws of Pad and Unpad. -/
def Obligations.PadAndUnpadLaws : Prop :=
  (∀ s : List Byte, (pad s).length % 16 = 0 ∧ s.length < (pad s).length) ∧
    (∀ s : List Byte, (∃ z, z ≤ 15 ∧ pad s = s ++ [0x80] ++ List.replicate z 0) ∧ unpad (pad s) = some s) ∧
      unpad (0x80 :: List.replicate 31 0) = none

/-- R140: the padded string is the shortest string that starts with the input and 0x80, goes on in zeros and is a multiple of
16 long; its length in closed form. -/
def Obligations.PadIsTheShortestPadding : Prop :=
  ∀ s : List Byte,
    (pad s).length = 16 * (s.length / 16 + 1) ∧
      (∀ i, i < s.length → byteAt (pad s) i = byteAt s i) ∧ byteAt (pad s) s.length = 0x80 ∧
      (∀ i, s.length < i → byteAt (pad s) i = 0x00) ∧
      ∀ n, s.length < n → n % 16 = 0 → (pad s).length ≤ n

/-- R142: Unpad finds exactly the strings that end in 0x80 and at most 15 zeros. -/
def Obligations.UnpadFindsTheLastEighty : Prop :=
  ∀ s d : List Byte, unpad s = some d ↔ ∃ z, z ≤ 15 ∧ s = d ++ [0x80] ++ List.replicate z 0x00

/-- R141: PAD. -/
def Obligations.PadCommand : Prop :=
  RunsAs 0x00000001 .pad ∧ ∀ s : State, ∃ t, exec .pad s = .next t ∧
    (256 ≤ s.inLen.toNat → EndsWithError s t .length) ∧
    (s.inLen.toNat ≤ 255 → EndsWithBytes s t (s.inBytes ++ 0x80 :: List.replicate (15 - s.inLen.toNat % 16) 0x00))

/-! ### The block cipher engine (41_block_cipher.md) -/

/-- R153, R154: the S-box entry is the affine transform of the inverse in GF(2^8) (0 for 0), and the inverse S-box inverts
it. -/
def Obligations.SboxIsAffineOfInverse : Prop :=
  ∀ x : Byte,
    (∃ b : Byte, (if x = 0 then b = 0 else gmul x b = 1) ∧
      sbox x = b ^^^ b.rotateLeft 1 ^^^ b.rotateLeft 2 ^^^ b.rotateLeft 3 ^^^ b.rotateLeft 4 ^^^ 0x63) ∧
      invSbox (sbox x) = x ∧ sbox (invSbox x) = x

/-- R160: the FIPS-197 known answers, for the three key lengths, and AES_D inverts each. -/
def Obligations.AesKnownAnswers : Prop :=
  let key (n : Nat) : List Byte := (List.range n).map (BitVec.ofNat 8)
  let p : List Byte := (List.range 16).map (fun i => BitVec.ofNat 8 (0x11 * i))
  let c16 := be 16 0x69c4e0d86a7b0430d8cdb78070b4c55a
  let c24 := be 16 0xdda97ca4864cdfe06eaf70a0ec0d7191
  let c32 := be 16 0x8ea2b7ca516745bfeafc49904b496089
  aesE (key 16) p = c16 ∧ aesE (key 24) p = c24 ∧ aesE (key 32) p = c32 ∧ aesD (key 16) c16 = p ∧ aesD (key 24) c24 = p ∧
    aesD (key 32) c32 = p

/-- R159: AES_D and AES_E invert each other on every 16-byte block. -/
def Obligations.AesDecryptionInvertsEncryption : Prop :=
  ∀ k b : List Byte, (k.length = 16 ∨ k.length = 24 ∨ k.length = 32) → b.length = 16 →
    aesD k (aesE k b) = b ∧ aesE k (aesD k b) = b

/-- R162, R163: the chaining equations, block by block, and that CBC_D inverts CBC_E. -/
def Obligations.CbcChainsAndInverts : Prop :=
  ∀ k iv p : List Byte, iv.length = 16 → p.length % 16 = 0 →
    (cbcE k iv p).length = p.length ∧ (cbcD k iv p).length = p.length ∧
      (∀ j, j < p.length / 16 →
        slice (cbcE k iv p) (16 * j) (16 * j + 16) =
            aesE k (xorBytes (slice p (16 * j) (16 * j + 16))
              (if j = 0 then iv else slice (cbcE k iv p) (16 * (j - 1)) (16 * (j - 1) + 16))) ∧
          slice (cbcD k iv p) (16 * j) (16 * j + 16) =
            xorBytes (aesD k (slice p (16 * j) (16 * j + 16)))
              (if j = 0 then iv else slice p (16 * (j - 1)) (16 * (j - 1) + 16))) ∧
      cbcD k iv (cbcE k iv p) = p

/-- R165: ENC_BLOCK. -/
def Obligations.EncBlockCommand : Prop :=
  RunsAs 0x00000009 .encBlock ∧ ∀ s : State, ∃ t, exec .encBlock s = .next t ∧ SharedErrors s t ∧
    (ReadyWithInput s → s.inLen.toNat ≠ 16 → EndsWithError s t .crypto) ∧
    (ReadyWithInput s → s.inLen.toNat = 16 → EndsWithBytes s t (aesE s.kenc s.inBytes))

/-- R167: DEC_BLOCK, and that it returns the block ENC_BLOCK encrypted. -/
def Obligations.DecBlockCommand : Prop :=
  RunsAs 0x0000000A .decBlock ∧
    (∀ s : State, ∃ t, exec .decBlock s = .next t ∧ SharedErrors s t ∧
      (ReadyWithInput s → s.inLen.toNat ≠ 16 → EndsWithError s t .crypto) ∧
      (ReadyWithInput s → s.inLen.toNat = 16 → EndsWithBytes s t (aesD s.kenc s.inBytes))) ∧
      ∀ s t u : State, ReadyWithInput s → s.inLen.toNat = 16 → exec .encBlock s = .next t → ReadyWithInput u →
        u.kenc = s.kenc → u.inBytes = t.mem.readBytes 0x200 16 →
          ∃ v, exec .decBlock u = .next v ∧ EndsWithBytes u v s.inBytes

/-! ### Counter-derived IV and data (42_iv_and_data.md) -/

/-- R190: the counter block: eight zero bytes, then the counter, most significant byte first. -/
def Obligations.CounterBlockIsBigEndian : Prop :=
  ∀ ssc : BitVec 64,
    ivBlock ssc = List.replicate 8 0x00 ++ be 8 ssc.toNat ∧ (ivBlock ssc).length = 16 ∧ intOf (ivBlock ssc) = ssc.toNat ∧
      ∀ i, i < 8 → byteAt (ivBlock ssc) (8 + i) = ssc.extractLsb' (8 * (7 - i)) 8

/-- R192: DERIVE_IV. -/
def Obligations.DeriveIvCommand : Prop :=
  RunsAs 0x00000002 .deriveIv ∧ ∀ s : State, ∃ t, exec .deriveIv s = .next t ∧
    (s.status.locked = true → EndsWithError s t .locked) ∧
    (s.status.locked = false → ¬KeysAccepted s → EndsWithError s t .crypto) ∧
    (s.status.locked = false → KeysAccepted s → EndsWithBytes s t (aesE s.kenc (be 16 s.ssc.toNat)))

/-- R195: ENC_DATA. -/
def Obligations.EncDataCommand : Prop :=
  RunsAs 0x00000003 .encData ∧ ∀ s : State, ∃ t, exec .encData s = .next t ∧ SharedErrors s t ∧
    (ReadyWithInput s → s.inLen.toNat = 256 → EndsWithError s t .length) ∧
    (ReadyWithInput s → s.inLen.toNat ≤ 255 →
      EndsWithBytes s t (cbcE s.kenc (aesE s.kenc (be 16 s.ssc.toNat)) (pad s.inBytes)))

/-- R198: DEC_DATA. -/
def Obligations.DecDataCommand : Prop :=
  RunsAs 0x00000004 .decData ∧ ∀ s : State, ∃ t, exec .decData s = .next t ∧ SharedErrors s t ∧
    (ReadyWithInput s → (s.inLen.toNat = 0 ∨ s.inLen.toNat % 16 ≠ 0) → EndsWithError s t .crypto) ∧
    (ReadyWithInput s → 0 < s.inLen.toNat → s.inLen.toNat % 16 = 0 →
      (unpad (cbcD s.kenc (aesE s.kenc (be 16 s.ssc.toNat)) s.inBytes) = none → EndsWithError s t .auth) ∧
      ∀ d, unpad (cbcD s.kenc (aesE s.kenc (be 16 s.ssc.toNat)) s.inBytes) = some d →
        EndsWithBytes s t d ∧ d.length < s.inLen.toNat)

/-- R196: DecData inverts EncData, as functions and as commands. -/
def Obligations.DecDataInvertsEncData : Prop :=
  (∀ (k : List Byte) (ssc : BitVec 64) (d : List Byte), (k.length = 16 ∨ k.length = 24 ∨ k.length = 32) →
    decData k ssc (encData k ssc d) = .ok d) ∧
    ∀ s t u : State, ReadyWithInput s → s.inLen.toNat ≤ 255 → exec .encData s = .next t → ReadyWithInput u →
      u.kenc = s.kenc → u.ssc = s.ssc → u.inBytes = t.mem.readBytes 0x200 t.outLen.toNat →
        ∃ v, exec .decData u = .next v ∧ EndsWithBytes u v s.inBytes

/-! ### The MAC engine (43_mac.md) -/

/-- R212: on a padded message the engine's 8-byte form is the start of the general CMAC. -/
def Obligations.ShortCmacIsTheGeneralCmac : Prop :=
  ∀ k m : List Byte, cmac8 k (pad m) = (cmac k (pad m)).take 8 ∧ (cmac k (pad m)).length = 16 ∧ (mac k m).length = 8

/-- R214: COMPUTE_MAC. -/
def Obligations.ComputeMacCommand : Prop :=
  RunsAs 0x00000005 .computeMac ∧ ∀ s : State, ∃ t, exec .computeMac s = .next t ∧ SharedErrors s t ∧
    (ReadyWithInput s → EndsWithBytes s t (cmac8 s.kmac (pad s.inBytes)) ∧ t.outLen = 8)

/-- R216: VERIFY_MAC; a mismatch is no error. -/
def Obligations.VerifyMacCommand : Prop :=
  RunsAs 0x00000006 .verifyMac ∧ ∀ s : State, ∃ t, exec .verifyMac s = .next t ∧ SharedErrors s t ∧
    (ReadyWithInput s → EndsWithMatch s t (decide (cmac8 s.kmac (pad s.inBytes) = lanes s.tag0 ++ lanes s.tag1)))

/-- R217: the MAC of a message verifies, as functions and as commands. -/
def Obligations.ComputedMacVerifies : Prop :=
  (∀ k m : List Byte, verifyMac k m (mac k m) = true) ∧
    ∀ s t u : State, ReadyWithInput s → exec .computeMac s = .next t → ReadyWithInput u → u.kmac = s.kmac →
      u.inBytes = s.inBytes → u.tag = t.mem.readBytes 0x200 8 →
        ∃ v, exec .verifyMac u = .next v ∧ v.status.err = none ∧ v.result.matched = true

/-! ### The TLV/APDU assembler and parser (44_apdu.md) -/

/-- R230: bits 3 and 2 of the protected CLA are 11, every other header bit is unchanged, for every CLA. -/
def Obligations.ProtectedHeaderSetsTheSmBits : Prop :=
  ∀ h : List Byte, h.length = 4 →
    (protectedHeader h).length = 4 ∧ byteAt (protectedHeader h) 0 = (byteAt h 0 &&& 0xF3) ||| 0x0C ∧
      (∀ i, i < 8 → (byteAt (protectedHeader h) 0).getLsbD i = (i == 2 || i == 3 || (byteAt h 0).getLsbD i)) ∧
      ∀ j, 1 ≤ j → j < 4 → byteAt (protectedHeader h) j = byteAt h j

/-- R235: PREPARE. -/
def Obligations.PrepareCommand : Prop :=
  RunsAs 0x00000007 .prepare ∧ ∀ s : State, ∃ t, exec .prepare s = .next t ∧
    (s.status.locked = true → EndsWithError s t .locked) ∧
    (s.status.locked = false → s.opt.dataPresent = true → 256 < s.inLen.toNat → EndsWithError s t .length) ∧
    (s.status.locked = false → ¬(s.opt.dataPresent = true ∧ 256 < s.inLen.toNat) → ¬KeysAccepted s →
      EndsWithError s t .crypto) ∧
    (s.status.locked = false → KeysAccepted s → s.opt.dataPresent = true → 112 ≤ s.inLen.toNat → s.inLen.toNat ≤ 256 →
      EndsWithError s t .encoding) ∧
    (s.status.locked = false → KeysAccepted s → (s.opt.dataPresent = true → s.inLen.toNat ≤ 111) →
      EndsWithBytes s t (protectedCommand s))

/-- R236: the length of PREPARE's output. -/
def Obligations.PrepareOutputLength : Prop :=
  ∀ s t : State, exec .prepare s = .next t → t.status.err = none →
    t.outLen.toNat = 4 + 1 + ((if s.opt.dataPresent then 3 + 16 * (s.inLen.toNat / 16 + 1) else 0) +
      (if s.opt.lePresent then 2 + s.opt.leLen.toNat else 0) + 10) + 1 ∧ t.outLen.toNat ≤ 134

/-- R237: PREPARE's output is a function of (kenc, kmac, ssc, HDR, data, le). -/
def Obligations.PrepareIsDeterminedByItsInputs : Prop :=
  ∀ s u t v : State, s.status.locked = false → u.status.locked = false → KeysAccepted s → KeysAccepted u →
    u.kenc = s.kenc → u.kmac = s.kmac → u.ssc = s.ssc → u.hdr = s.hdr → u.data = s.data → u.le = s.le →
      exec .prepare s = .next t → exec .prepare u = .next v →
        v.status.err = t.status.err ∧
          (t.status.err = none → v.outLen = t.outLen ∧ ∀ i, i < t.outLen.toNat → v.mem.read (0x200 + i) = t.mem.read (0x200 + i))

/-- R243, R120: ParseResponse accepts exactly the response grammar and returns its parts; everything else raises AUTH. -/
def Obligations.ParserAcceptsExactlyTheGrammar : Prop :=
  ∀ r : List Byte,
    (∀ do87 do99 tag, parseResponse r = .ok (do87, do99, tag) ↔ IsResponse r do87 do99 tag) ∧
      ((¬∃ do87 do99 tag, IsResponse r do87 do99 tag) → parseResponse r = .error .auth)

/-- R245: UNWRAP. -/
def Obligations.UnwrapCommand : Prop :=
  RunsAs 0x00000008 .unwrap ∧ ∀ s : State, ∃ t, exec .unwrap s = .next t ∧ SharedErrors s t ∧
    (ReadyWithInput s →
      ((¬∃ do87 do99 tag, IsResponse s.inBytes do87 do99 tag) → EndsWithError s t .auth) ∧
      ∀ (do87 tag : List Byte) (sw1 sw2 : Byte), IsResponse s.inBytes do87 [0x99, 0x02, sw1, sw2] tag →
        (mac s.kmac (be 16 s.ssc.toNat ++ do87 ++ [0x99, 0x02, sw1, sw2]) ≠ tag → EndsWithError s t .auth) ∧
        (mac s.kmac (be 16 s.ssc.toNat ++ do87 ++ [0x99, 0x02, sw1, sw2]) = tag →
          (do87 = [] → EndsWithPlain s t [] (sw1 ++ sw2) false) ∧
          ∀ ct : List Byte, do87 = [0x87, lenByte (1 + ct.length), 0x01] ++ ct →
            ((ct.length = 0 ∨ ct.length % 16 ≠ 0) → EndsWithError s t .crypto) ∧
            (0 < ct.length → ct.length % 16 = 0 →
              (unpad (cbcD s.kenc (aesE s.kenc (be 16 s.ssc.toNat)) ct) = none → EndsWithError s t .auth) ∧
              ∀ d, unpad (cbcD s.kenc (aesE s.kenc (be 16 s.ssc.toNat)) ct) = some d →
                EndsWithPlain s t d (sw1 ++ sw2) true)))

/-- R246: UNWRAP opens what the card side builds. -/
def Obligations.UnwrapOpensCardResponses : Prop :=
  ∀ (s : State) (d : List Byte) (sw1 sw2 : Byte), ReadyWithInput s → d.length ≤ 111 →
    s.inBytes = cardResponse s d sw1 sw2 →
      ∃ t, exec .unwrap s = .next t ∧ EndsWithPlain s t d (sw1 ++ sw2) true

/-! ### Lock and interrupt (60_exceptions.md) -/

/-- R278: AUTH latches LOCKED, and only a reset clears it. -/
def Obligations.OnlyResetClearsLocked : Prop :=
  ∀ s t : State, step s = .next t →
    (s.engineDue = true → t.status.err = some .auth → t.status.locked = true) ∧
      (s.status.locked = true → t.status.locked = false →
        s.engineDue = false ∧ ∃ i rest, s.pending = i :: rest ∧ isReset i = true)

/-- R279: while LOCKED = 1 every keyed command ends with LOCKED and no other effect, PAD runs, and register writes are
accepted as before. -/
def Obligations.LockedRefusesKeyedCommands : Prop :=
  ∀ s : State, s.status.locked = true →
    (∀ i : Instr, i ≠ .pad → ∃ t, exec i s = .next t ∧ EndsWithError s t .locked ∧ t.status.locked = true) ∧
      (s.inLen.toNat ≤ 255 → ∃ t, exec .pad s = .next t ∧ EndsWithBytes s t (pad s.inBytes) ∧ t.status.locked = true) ∧
      (s.status.busy = false → ∀ (r : Reg) (v : Word), s.writeReg r v = s.applyWrite r v)

/-- R285: IRQ is IE AND DONE; what raises, masks and clears it, and that WERR, LOCKED and bus errors do not. -/
def Obligations.InterruptIsEnableAndDone : Prop :=
  ∀ s : State,
    s.irq = (s.ctrl.ie && s.status.done) ∧
      (∀ i t, exec i s = .next t → t.irq = s.ctrl.ie) ∧
      (∀ v : Word, v.getLsbD 1 = true → (s.perform (wr .status v)).irq = false) ∧
      (∀ v : Word, s.status.busy = false → (s.perform (wr .cmd v)).irq = false) ∧
      (s.perform .reset).irq = false ∧ (s.perform (wr .ctrl 0x1)).irq = false ∧
      ((s.perform (wr .ctrl 0x0)).irq = false ∧ (s.perform (wr .ctrl 0x0)).status.done = s.status.done) ∧
      (∀ b : Bool, State.irq { s with status := { s.status with werr := b } } = s.irq ∧
        State.irq { s with status := { s.status with locked := b } } = s.irq) ∧
      ∀ width off v, BusRejects width off →
        (s.perform (.read width off)).irq = s.irq ∧ (s.perform (.write width off v)).irq = s.irq

/-! ### Reset (70_reset_and_hazards.md) -/

/-- R310, R55: after the reset input every register reads its reset value, every buffer and key byte is 0, no command is in
flight and IRQ is low; and the state is that of State.reset but for the model's own fields
(log 1, log 3, log 10). -/
def Obligations.ResetClearsEverything : Prop :=
  ∀ s : State,
    let t := s.perform .reset
    (∀ r : Reg, t.readReg r = if r = .id then 0x534D0100 else 0x00000000) ∧ (∀ a, t.mem.read a = 0) ∧
      t.kcfg = { kencLen := 0, kmacLen := 0 } ∧ t.ssc = 0 ∧ t.ctrl.ie = false ∧ t.status.busy = false ∧
      t.status.locked = false ∧ t.status.werr = false ∧ t.irq = false ∧
      t = { State.reset with pending := s.pending, responses := s.responses, issues := s.issues }

/-- R311: a CTRL write with SRST = 1 makes the same state change, whatever else it holds and whether or not a command is in
flight; with SRST = 0 it updates CTRL.IE only. -/
def Obligations.SoftResetIsTheReset : Prop :=
  ∀ (s : State) (v : Word),
    (v.getLsbD 0 = true →
      s.perform (wr .ctrl v) = { s.perform .reset with responses := s.responses ++ [.written] } ∧
        (s.perform (wr .ctrl v)).readReg .ctrl = 0 ∧ (s.perform (wr .ctrl v)).status = Status.reset ∧
        (s.perform (wr .ctrl v)).irq = false ∧ ∀ a, (s.perform (wr .ctrl v)).mem.read a = 0) ∧
      (v.getLsbD 0 = false →
        s.perform (wr .ctrl v) = { s with ctrl := { ie := v.getLsbD 1 }, responses := s.responses ++ [.written] })

/-- R312: after a reset nothing happens by itself, IRQ is masked and nothing is pending; with KCFG = 0 every keyed command
fails with CRYPTO, and PAD works at once. -/
def Obligations.AfterResetOnlyPadWorks : Prop :=
  step State.reset = .next State.reset ∧ State.reset.status.busy = false ∧ State.reset.ctrl.ie = false ∧
    State.reset.status.done = false ∧
    (∀ (i : Instr) (s : State), i ≠ .pad → s.kcfg = { kencLen := 0, kmacLen := 0 } → s.status.locked = false →
      s.inLen.toNat ≤ 256 → ∃ t, exec i s = .next t ∧ EndsWithError s t .crypto) ∧
      ∃ t, exec .pad State.reset = .next t ∧ EndsWithBytes State.reset t (0x80 :: List.replicate 15 0x00)

/-- R313: the boot writes, made while BUSY = 0, leave the keys, their lengths, the counter and the interrupt enable as given,
and no access of them is rejected or lost. -/
def Obligations.BootWritesConfigureTheSession : Prop :=
  ∀ (s : State) (l : Nat) (ke km : List Byte) (v : BitVec 64) (useIrq : Bool),
    s.status.busy = false → (l = 16 ∨ l = 24 ∨ l = 32) → ke.length = l → km.length = l →
      let t := (boot l ke km v useIrq).foldl State.perform s
      t.kenc = ke ∧ t.kmac = km ∧ KeysAccepted t ∧ t.ssc = v ∧ t.ctrl.ie = (useIrq || s.ctrl.ie) ∧
        t.status = s.status ∧ t.responses = s.responses ++ List.replicate (boot l ke km v useIrq).length .written

/-! ### Instances (20_memory.md R95, 60_exceptions.md R300) -/

/-- R95: a step of one instance, or an input to it, leaves every other instance as it was, and is that instance's own
step. -/
def Obligations.InstancesAreIndependent : Prop :=
  ∀ (p : Platform) (k : Nat),
    (∃ q, p.stepAt k = .next q ∧ q.instances.length = p.instances.length ∧
      (∀ j, j ≠ k → q.instances[j]? = p.instances[j]?) ∧
      ∀ s, p.instances[k]? = some s → ∃ t, step s = .next t ∧ q.instances[k]? = some t) ∧
      ∀ (i : Input) (j : Nat), (p.deliver k i).instances[j]? =
        if j = k then (p.instances[k]?).map (fun s => { s with pending := s.pending ++ [i] }) else p.instances[j]?

/-! ### Rules about the whole machine -/

/-- R38: only a host write to SSC_LO or SSC_HI while BUSY = 0, or a reset, changes the counter; both halves are 0 at
reset. -/
def Obligations.OnlyTheHostChangesTheCounter : Prop :=
  (∀ s : State, s.ssc.toNat = s.sscHi.toNat * 2 ^ 32 + s.sscLo.toNat) ∧
    (State.reset.sscLo = 0 ∧ State.reset.sscHi = 0) ∧
      ∀ s t : State, step s = .next t → t.ssc ≠ s.ssc →
        s.engineDue = false ∧ ∃ i rest, s.pending = i :: rest ∧
          (isReset i = true ∨ (s.status.busy = false ∧ ∃ v, i = wr .sscLo v ∨ i = wr .sscHi v))

/-- R46, R47: only a host write to that key word while BUSY = 0, or a reset, changes a key byte. -/
def Obligations.OnlyTheHostChangesTheKeys : Prop :=
  ∀ (s t : State) (a : Nat), step s = .next t → 0x040 ≤ a → a < 0x080 → t.mem.read a ≠ s.mem.read a →
    s.engineDue = false ∧ ∃ i rest, s.pending = i :: rest ∧
      (isReset i = true ∨
        (s.status.busy = false ∧ ∃ (off : BitVec 12) (v : Word), i = .write .word off v ∧ off.toNat = a - a % 4))

/-- R321: outside a completion, the outputs of a command change only by an issue or a reset. -/
def Obligations.OutputsLastUntilIssueOrReset : Prop :=
  ∀ s t : State, step s = .next t → s.engineDue = false →
    (t.outLen ≠ s.outLen ∨ t.sw ≠ s.sw ∨ t.result ≠ s.result ∨ ∃ a, 0x200 ≤ a ∧ a < 0x300 ∧ t.mem.read a ≠ s.mem.read a) →
      ∃ i rest, s.pending = i :: rest ∧ (isReset i = true ∨ (s.status.busy = false ∧ ∃ v, i = wr .cmd v))

/-- The canonical form is one: canonical memories that read alike at every offset are equal. The form is the model's (log 14). -/
def Obligations.CanonicalMemoriesAreExtensional : Prop :=
  ∀ m m' : Memory, Memory.wf m → Memory.wf m' → (∀ a, m.read a = m'.read a) → m = m'
end

