-- ==== Sys2Proof/Laws/Aes.lean ====
section
/-! SUPPORT. The layers of AES: multiplication in GF(2^8) is linear, and MixColumns, ShiftRows and AddRoundKey undo their inverses
(41_block_cipher.md R152, R155). -/

namespace Sys2Proof.Machine

/-- R152: xtime is linear. -/
theorem xtime_xor (a b : Byte) : xtime (a ^^^ b) = xtime a ^^^ xtime b := by
  apply BitVec.eq_of_getLsbD_eq
  intro i hi
  simp only [xtime, BitVec.getLsbD_xor, BitVec.getLsbD_shiftLeft]
  cases ha : a.getLsbD 7 <;> cases hb : b.getLsbD 7 <;> interval_cases i <;> simp at ha hb ⊢

/-- R152: the partial products are linear. -/
theorem gmulBits_xor (n : Nat) (k a b : Byte) : gmulBits n k (a ^^^ b) = gmulBits n k a ^^^ gmulBits n k b := by
  induction n generalizing k a b with
  | zero => simp [gmulBits]
  | succ n ih =>
    simp only [gmulBits, xtime_xor, ih]
    cases k.getLsbD 0 <;> simp <;> ac_rfl

/-- R152: multiplication is linear. -/
theorem gmul_xor (k a b : Byte) : gmul k (a ^^^ b) = gmul k a ^^^ gmul k b := gmulBits_xor 8 k a b

/-- R155: the column of InvMixColumns times that of MixColumns. -/
theorem invMix_mix_terms : ∀ a : Byte,
    gmul 0x0e (gmul 0x02 a) ^^^ gmul 0x0b a ^^^ gmul 0x0d a ^^^ gmul 0x09 (gmul 0x03 a) = a ∧
    gmul 0x0e (gmul 0x03 a) ^^^ gmul 0x0b (gmul 0x02 a) ^^^ gmul 0x0d a ^^^ gmul 0x09 a = 0 ∧
    gmul 0x0e a ^^^ gmul 0x0b (gmul 0x03 a) ^^^ gmul 0x0d (gmul 0x02 a) ^^^ gmul 0x09 a = 0 ∧
    gmul 0x0e a ^^^ gmul 0x0b a ^^^ gmul 0x0d (gmul 0x03 a) ^^^ gmul 0x09 (gmul 0x02 a) = 0 := by decide +kernel

/-- R155: the column of MixColumns times that of InvMixColumns. -/
theorem mix_invMix_terms : ∀ a : Byte,
    gmul 0x02 (gmul 0x0e a) ^^^ gmul 0x03 (gmul 0x09 a) ^^^ gmul 0x0d a ^^^ gmul 0x0b a = a ∧
    gmul 0x02 (gmul 0x0b a) ^^^ gmul 0x03 (gmul 0x0e a) ^^^ gmul 0x09 a ^^^ gmul 0x0d a = 0 ∧
    gmul 0x02 (gmul 0x0d a) ^^^ gmul 0x03 (gmul 0x0b a) ^^^ gmul 0x0e a ^^^ gmul 0x09 a = 0 ∧
    gmul 0x02 (gmul 0x09 a) ^^^ gmul 0x03 (gmul 0x0d a) ^^^ gmul 0x0b a ^^^ gmul 0x0e a = 0 := by decide +kernel

/-- R155: InvMixColumns undoes MixColumns. -/
theorem invMix_mix (c : Column) : invMixColumn (mixColumn c) = c := by
  obtain ⟨a, b, c, d⟩ := c
  simp only [mixColumn, invMixColumn, gmul_xor, Column.mk.injEq]
  obtain ⟨a1, a2, a3, a4⟩ := invMix_mix_terms a
  obtain ⟨b1, b2, b3, b4⟩ := invMix_mix_terms b
  obtain ⟨c1, c2, c3, c4⟩ := invMix_mix_terms c
  obtain ⟨d1, d2, d3, d4⟩ := invMix_mix_terms d
  refine ⟨?_, ?_, ?_, ?_⟩
  · calc _ = (gmul 0x0e (gmul 0x02 a) ^^^ gmul 0x0b a ^^^ gmul 0x0d a ^^^ gmul 0x09 (gmul 0x03 a)) ^^^ (gmul 0x0e (gmul 0x03 b) ^^^ gmul 0x0b (gmul 0x02 b) ^^^ gmul 0x0d b ^^^ gmul 0x09 b) ^^^ (gmul 0x0e c ^^^ gmul 0x0b (gmul 0x03 c) ^^^ gmul 0x0d (gmul 0x02 c) ^^^ gmul 0x09 c) ^^^ (gmul 0x0e d ^^^ gmul 0x0b d ^^^ gmul 0x0d (gmul 0x03 d) ^^^ gmul 0x09 (gmul 0x02 d)) := by ac_rfl
      _ = _ := by rw [a1, b2, c3, d4]; simp
  · calc _ = (gmul 0x0e (gmul 0x02 b) ^^^ gmul 0x0b b ^^^ gmul 0x0d b ^^^ gmul 0x09 (gmul 0x03 b)) ^^^ (gmul 0x0e (gmul 0x03 c) ^^^ gmul 0x0b (gmul 0x02 c) ^^^ gmul 0x0d c ^^^ gmul 0x09 c) ^^^ (gmul 0x0e d ^^^ gmul 0x0b (gmul 0x03 d) ^^^ gmul 0x0d (gmul 0x02 d) ^^^ gmul 0x09 d) ^^^ (gmul 0x0e a ^^^ gmul 0x0b a ^^^ gmul 0x0d (gmul 0x03 a) ^^^ gmul 0x09 (gmul 0x02 a)) := by ac_rfl
      _ = _ := by rw [b1, c2, d3, a4]; simp
  · calc _ = (gmul 0x0e (gmul 0x02 c) ^^^ gmul 0x0b c ^^^ gmul 0x0d c ^^^ gmul 0x09 (gmul 0x03 c)) ^^^ (gmul 0x0e (gmul 0x03 d) ^^^ gmul 0x0b (gmul 0x02 d) ^^^ gmul 0x0d d ^^^ gmul 0x09 d) ^^^ (gmul 0x0e a ^^^ gmul 0x0b (gmul 0x03 a) ^^^ gmul 0x0d (gmul 0x02 a) ^^^ gmul 0x09 a) ^^^ (gmul 0x0e b ^^^ gmul 0x0b b ^^^ gmul 0x0d (gmul 0x03 b) ^^^ gmul 0x09 (gmul 0x02 b)) := by ac_rfl
      _ = _ := by rw [c1, d2, a3, b4]; simp
  · calc _ = (gmul 0x0e (gmul 0x02 d) ^^^ gmul 0x0b d ^^^ gmul 0x0d d ^^^ gmul 0x09 (gmul 0x03 d)) ^^^ (gmul 0x0e (gmul 0x03 a) ^^^ gmul 0x0b (gmul 0x02 a) ^^^ gmul 0x0d a ^^^ gmul 0x09 a) ^^^ (gmul 0x0e b ^^^ gmul 0x0b (gmul 0x03 b) ^^^ gmul 0x0d (gmul 0x02 b) ^^^ gmul 0x09 b) ^^^ (gmul 0x0e c ^^^ gmul 0x0b c ^^^ gmul 0x0d (gmul 0x03 c) ^^^ gmul 0x09 (gmul 0x02 c)) := by ac_rfl
      _ = _ := by rw [d1, a2, b3, c4]; simp

/-- R155: MixColumns undoes InvMixColumns. -/
theorem mix_invMix (c : Column) : mixColumn (invMixColumn c) = c := by
  obtain ⟨a, b, c, d⟩ := c
  simp only [mixColumn, invMixColumn, gmul_xor, Column.mk.injEq]
  obtain ⟨a1, a2, a3, a4⟩ := mix_invMix_terms a
  obtain ⟨b1, b2, b3, b4⟩ := mix_invMix_terms b
  obtain ⟨c1, c2, c3, c4⟩ := mix_invMix_terms c
  obtain ⟨d1, d2, d3, d4⟩ := mix_invMix_terms d
  refine ⟨?_, ?_, ?_, ?_⟩
  · calc _ = (gmul 0x02 (gmul 0x0e a) ^^^ gmul 0x03 (gmul 0x09 a) ^^^ gmul 0x0d a ^^^ gmul 0x0b a) ^^^ (gmul 0x02 (gmul 0x0b b) ^^^ gmul 0x03 (gmul 0x0e b) ^^^ gmul 0x09 b ^^^ gmul 0x0d b) ^^^ (gmul 0x02 (gmul 0x0d c) ^^^ gmul 0x03 (gmul 0x0b c) ^^^ gmul 0x0e c ^^^ gmul 0x09 c) ^^^ (gmul 0x02 (gmul 0x09 d) ^^^ gmul 0x03 (gmul 0x0d d) ^^^ gmul 0x0b d ^^^ gmul 0x0e d) := by ac_rfl
      _ = _ := by rw [a1, b2, c3, d4]; simp
  · calc _ = (gmul 0x02 (gmul 0x0e b) ^^^ gmul 0x03 (gmul 0x09 b) ^^^ gmul 0x0d b ^^^ gmul 0x0b b) ^^^ (gmul 0x02 (gmul 0x0b c) ^^^ gmul 0x03 (gmul 0x0e c) ^^^ gmul 0x09 c ^^^ gmul 0x0d c) ^^^ (gmul 0x02 (gmul 0x0d d) ^^^ gmul 0x03 (gmul 0x0b d) ^^^ gmul 0x0e d ^^^ gmul 0x09 d) ^^^ (gmul 0x02 (gmul 0x09 a) ^^^ gmul 0x03 (gmul 0x0d a) ^^^ gmul 0x0b a ^^^ gmul 0x0e a) := by ac_rfl
      _ = _ := by rw [b1, c2, d3, a4]; simp
  · calc _ = (gmul 0x02 (gmul 0x0e c) ^^^ gmul 0x03 (gmul 0x09 c) ^^^ gmul 0x0d c ^^^ gmul 0x0b c) ^^^ (gmul 0x02 (gmul 0x0b d) ^^^ gmul 0x03 (gmul 0x0e d) ^^^ gmul 0x09 d ^^^ gmul 0x0d d) ^^^ (gmul 0x02 (gmul 0x0d a) ^^^ gmul 0x03 (gmul 0x0b a) ^^^ gmul 0x0e a ^^^ gmul 0x09 a) ^^^ (gmul 0x02 (gmul 0x09 b) ^^^ gmul 0x03 (gmul 0x0d b) ^^^ gmul 0x0b b ^^^ gmul 0x0e b) := by ac_rfl
      _ = _ := by rw [c1, d2, a3, b4]; simp
  · calc _ = (gmul 0x02 (gmul 0x0e d) ^^^ gmul 0x03 (gmul 0x09 d) ^^^ gmul 0x0d d ^^^ gmul 0x0b d) ^^^ (gmul 0x02 (gmul 0x0b a) ^^^ gmul 0x03 (gmul 0x0e a) ^^^ gmul 0x09 a ^^^ gmul 0x0d a) ^^^ (gmul 0x02 (gmul 0x0d b) ^^^ gmul 0x03 (gmul 0x0b b) ^^^ gmul 0x0e b ^^^ gmul 0x09 b) ^^^ (gmul 0x02 (gmul 0x09 c) ^^^ gmul 0x03 (gmul 0x0d c) ^^^ gmul 0x0b c ^^^ gmul 0x0e c) := by ac_rfl
      _ = _ := by rw [d1, a2, b3, c4]; simp

/-- Exclusive-or with the same column twice. -/
theorem Column.xor_cancel (v w : Column) : (v.xor w).xor w = v := by
  simp [Column.xor]

/-- R155: AddRoundKey undoes itself. -/
theorem addRoundKey_twice (w : List Column) (i : Nat) (s : AesState) : addRoundKey w i (addRoundKey w i s) = s := by
  simp [addRoundKey, AesState.xor, Column.xor_cancel]

/-- R151: the state of a block of a state. -/
theorem ofBytes_bytes (s : AesState) : AesState.ofBytes s.bytes = s := rfl

end Sys2Proof.Machine
end

