-- ==== Sys2Proof/Laws/Checks.lean ====
section
/-! SUPPORT. The checks of R272 and R161 as one chain of cases, in the order of R273. -/

namespace Sys2Proof.Machine

@[simp] theorem check_true (e : ErrCode) : check true e = .ok () := rfl

@[simp] theorem check_false (e : ErrCode) : check false e = .error e := rfl

theorem check_decide_pos {p : Prop} [Decidable p] (h : p) (e : ErrCode) : check (decide p) e = .ok () := by
  simp [h]

theorem check_decide_neg {p : Prop} [Decidable p] (h : ¬p) (e : ErrCode) : check (decide p) e = .error e := by
  simp [h]

/-- A check lets the rest run or raises. -/
theorem check_bind {α : Type} (b : Bool) (e : ErrCode) (f : Unit → Except ErrCode α) :
    (check b e >>= f) = if b then f () else .error e := by
  cases b <;> rfl

@[simp] theorem ok_bind {α β : Type} (a : α) (f : α → Except ErrCode β) : (Except.ok a >>= f) = f a := rfl

@[simp] theorem error_bind {α β : Type} (e : ErrCode) (f : α → Except ErrCode β) :
    ((Except.error e : Except ErrCode α) >>= f) = .error e := rfl

/-- R272, R273: what the shared checks answer. -/
theorem runChecks_eq (i : Instr) (s : State) :
    runChecks i s =
      if keyed i = true ∧ s.status.locked = true then .error .locked
      else if readsIn s i = true ∧ Config.inCap < s.inLen.toNat then .error .length
      else if keyed i = true ∧ s.keysOk = false then .error .crypto
      else .ok () := by
  unfold runChecks runPrelude keyCheck
  rcases hk : keyed i <;> rcases hl : s.status.locked <;> rcases hr : readsIn s i <;> rcases ho : s.keysOk <;>
    by_cases hn : s.inLen.toNat ≤ Config.inCap <;>
    simp [hn, Nat.not_lt.mpr, Nat.lt_of_not_le]

/-- The checks pass exactly when none of their grounds holds. -/
theorem runChecks_ok_iff (i : Instr) (s : State) :
    runChecks i s = .ok () ↔
      ¬(keyed i = true ∧ s.status.locked = true) ∧ ¬(readsIn s i = true ∧ Config.inCap < s.inLen.toNat) ∧
        ¬(keyed i = true ∧ s.keysOk = false) := by
  rw [runChecks_eq]
  split_ifs <;> simp_all

/-- R161: the key check in the rule's words. -/
theorem keysOk_iff (s : State) :
    s.keysOk = true ↔ s.kcfg.kencLen.toNat ∈ Config.supportedKeylens ∧ s.kcfg.kmacLen = s.kcfg.kencLen := by
  simp [State.keysOk]

end Sys2Proof.Machine
end

