-- ==== Sys2Proof/Laws/Memory.lean ====
section
/-! SUPPORT. What the byte-memory operations do, said once: reads after writes, and that every operation keeps the canonical
form. -/

namespace Sys2Proof.Machine

@[simp] theorem Memory.read_nil (a : Nat) : Memory.read [] a = 0 := rfl

theorem Memory.read_insert (m : Memory) (a : Nat) (v : Byte) (c : Nat) :
    (m.insert a v).read c = if c = a then v else m.read c := by
  induction m with
  | nil => simp [Memory.insert, Memory.read]
  | cons hd tl ih =>
    obtain ⟨b, w⟩ := hd
    by_cases h1 : a < b
    · simp [Memory.insert, Memory.read, h1]
    · by_cases h2 : a = b
      · subst h2; by_cases h : c = a <;> simp [Memory.insert, Memory.read, h]
      · by_cases hc : c = b
        · have : c ≠ a := fun e => h2 (e ▸ hc)
          simp [Memory.insert, Memory.read, h1, h2, hc, Ne.symm h2]
        · simp [Memory.insert, Memory.read, h1, h2, hc, ih]

theorem Memory.read_filter (m : Memory) (p : Nat → Bool) (c : Nat) :
    Memory.read (m.filter (fun x => p x.1)) c = if p c then m.read c else 0 := by
  induction m with
  | nil => simp
  | cons hd tl ih =>
    obtain ⟨b, w⟩ := hd
    by_cases hb : p b = true
    · rw [List.filter_cons_of_pos (by simpa using hb)]
      simp only [Memory.read, ih]
      by_cases hc : c = b
      · subst hc; simp [hb]
      · simp [hc]
    · rw [List.filter_cons_of_neg (by simpa using hb), ih]
      simp only [Memory.read]
      by_cases hc : c = b
      · subst hc; simp [hb]
      · simp [hc]

/-- A read after a write of one byte, at the same offset and at any other. -/
@[simp] theorem Memory.read_write (m : Memory) (a : Nat) (v : Byte) (c : Nat) :
    (m.write a v).read c = if c = a then v else m.read c := by
  unfold Memory.write
  split
  · rename_i h
    rw [Memory.erase, Memory.read_filter m (fun x => x != a)]
    by_cases hc : c = a <;> simp [hc, h, Config.unlistedByte]
  · exact Memory.read_insert m a v c

/-- A read after a write of a byte string. -/
theorem Memory.read_writeBytes (bs : List Byte) (m : Memory) (a c : Nat) :
    (m.writeBytes a bs).read c = if a ≤ c ∧ c < a + bs.length then bs.getD (c - a) 0 else m.read c := by
  induction bs generalizing m a with
  | nil =>
    have h : ¬(a ≤ c ∧ c < a + ([] : List Byte).length) := by simp
    rw [if_neg h]; rfl
  | cons v vs ih =>
    simp only [Memory.writeBytes, ih, Memory.read_write, List.length_cons]
    by_cases h : c = a
    · subst h; simp
    · by_cases h2 : a + 1 ≤ c ∧ c < a + 1 + vs.length
      · obtain ⟨k, hk⟩ : ∃ k, c = a + 1 + k := ⟨c - (a + 1), by omega⟩
        subst hk
        have e1 : a + 1 + k - (a + 1) = k := by omega
        have e2 : a + 1 + k - a = k + 1 := by omega
        rw [if_pos h2, if_pos (by omega), e1, e2]
        simp
      · rw [if_neg h2, if_neg h, if_neg (by omega)]

@[simp] theorem Memory.read_clear (m : Memory) (a n c : Nat) :
    (m.clear a n).read c = if a ≤ c ∧ c < a + n then 0 else m.read c := by
  rw [Memory.clear, Memory.read_filter m (fun x => decide (x < a) || decide (a + n ≤ x))]
  by_cases h : a ≤ c ∧ c < a + n
  · rw [if_pos h, if_neg]; simp; omega
  · rw [if_neg h, if_pos]; simp; omega

@[simp] theorem Memory.length_readBytes (m : Memory) (a n : Nat) : (m.readBytes a n).length = n := by
  simp [Memory.readBytes]

theorem Memory.getD_readBytes (m : Memory) (a n i : Nat) (h : i < n) : (m.readBytes a n).getD i 0 = m.read (a + i) := by
  simp [Memory.readBytes, h]

/-- Bytes read from where every byte agrees are equal. -/
theorem Memory.readBytes_congr {m m' : Memory} {a n : Nat} (h : ∀ i, i < n → m.read (a + i) = m'.read (a + i)) :
    m.readBytes a n = m'.readBytes a n :=
  List.map_congr_left (fun i hi => h i (List.mem_range.mp hi))

/-! The canonical form. -/

theorem Memory.wf_nil : Memory.wf [] := by simp [Memory.wf]

theorem Memory.wf_filter {m : Memory} (p : Host.Cell → Bool) (h : m.wf) : Memory.wf (m.filter p) :=
  ⟨h.1.filter p, fun c hc => h.2 c (List.mem_of_mem_filter hc)⟩

theorem Memory.mem_insert {m : Memory} {a : Nat} {v : Byte} {c : Host.Cell} (h : c ∈ m.insert a v) :
    c = (a, v) ∨ c ∈ m := by
  induction m with
  | nil => simpa [Memory.insert] using h
  | cons hd tl ih =>
    obtain ⟨b, w⟩ := hd
    simp only [Memory.insert] at h
    split_ifs at h
    · simpa using h
    · rcases List.mem_cons.mp h with h | h
      · exact .inl h
      · exact .inr (List.mem_cons_of_mem _ h)
    · rcases List.mem_cons.mp h with h | h
      · exact .inr (h ▸ List.mem_cons_self)
      · rcases ih h with h | h
        · exact .inl h
        · exact .inr (List.mem_cons_of_mem _ h)

theorem Memory.wf_insert {m : Memory} {a : Nat} {v : Byte} (hv : v ≠ Config.unlistedByte) (h : m.wf) :
    Memory.wf (m.insert a v) := by
  refine ⟨?_, fun c hc => ?_⟩
  · have hs := h.1
    clear h
    induction m with
    | nil => simp [Memory.insert]
    | cons hd tl ih =>
      obtain ⟨b, w⟩ := hd
      rw [List.pairwise_cons] at hs
      simp only [Memory.insert]
      split_ifs with h1 h2
      · rw [List.pairwise_cons, List.pairwise_cons]
        refine ⟨fun c hc => ?_, hs⟩
        rcases List.mem_cons.mp hc with rfl | hc
        · exact h1
        · exact Nat.lt_trans h1 (hs.1 c hc)
      · subst h2; exact List.pairwise_cons.mpr hs
      · rw [List.pairwise_cons]
        refine ⟨fun c hc => ?_, ih hs.2⟩
        rcases Memory.mem_insert hc with rfl | hc
        · exact lt_of_le_of_ne (not_lt.mp h1) (Ne.symm h2)
        · exact hs.1 c hc
  · rcases Memory.mem_insert hc with rfl | hc
    · exact hv
    · exact h.2 c hc

theorem Memory.wf_write {m : Memory} (a : Nat) (v : Byte) (h : m.wf) : (m.write a v).wf := by
  unfold Memory.write
  split
  · exact Memory.wf_filter _ h
  · rename_i hv; exact Memory.wf_insert hv h

theorem Memory.wf_writeBytes (bs : List Byte) {m : Memory} (a : Nat) (h : m.wf) : (m.writeBytes a bs).wf := by
  induction bs generalizing m a with
  | nil => exact h
  | cons v vs ih => exact ih (a + 1) (Memory.wf_write a v h)

theorem Memory.wf_writeWord {m : Memory} (a : Nat) (v : Word) (h : m.wf) : (m.writeWord a v).wf :=
  Memory.wf_writeBytes _ a h

theorem Memory.wf_clear {m : Memory} (a n : Nat) (h : m.wf) : (m.clear a n).wf := Memory.wf_filter _ h

/-- What a byte-string write lists was listed before or is one of its own offsets. -/
theorem Memory.mem_writeBytes (bs : List Byte) {m : Memory} {a : Nat} {c : Host.Cell} (h : c ∈ m.writeBytes a bs) :
    c ∈ m ∨ (a ≤ c.1 ∧ c.1 < a + bs.length) := by
  induction bs generalizing m a with
  | nil => exact .inl h
  | cons v vs ih =>
    rcases ih h with h | h
    · unfold Memory.write at h
      split at h
      · exact .inl (List.mem_of_mem_filter h)
      · rcases Memory.mem_insert h with rfl | h
        · right; simp
        · exact .inl h
    · right; simp; omega

end Sys2Proof.Machine
end

