-- ==== Sys2Proof/Laws/Bytes.lean ====
section
/-! SUPPORT. The lengths of the byte strings the commands compute. -/

namespace Sys2Proof.Machine

@[simp] theorem length_be (n v : Nat) : (be n v).length = n := by simp [be]

@[simp] theorem length_zeros (n : Nat) : (zeros n).length = n := by simp [zeros]

@[simp] theorem length_xorBytes (a b : List Byte) : (xorBytes a b).length = min a.length b.length := by
  simp [xorBytes]

@[simp] theorem length_lanes (w : Word) : (lanes w).length = 4 := rfl

/-- R140: the length of a padded string. -/
theorem length_pad (s : List Byte) : (pad s).length = 16 * (s.length / 16 + 1) := by
  simp [pad, Config.blockLen]; omega

theorem length_AesState_bytes (s : AesState) : s.bytes.length = 16 := rfl

/-- R150: the block is 16 bytes for every key. -/
@[simp] theorem length_aesE (k b : List Byte) : (aesE k b).length = 16 := rfl

@[simp] theorem length_aesD (k b : List Byte) : (aesD k b).length = 16 := rfl

theorem length_cbcEBlocks (k : List Byte) (n : Nat) (c p : List Byte) : (cbcEBlocks k n c p).length = 16 * n := by
  induction n generalizing c p with
  | zero => rfl
  | succ n ih => simp [cbcEBlocks, ih]; omega

theorem length_cbcE (k iv p : List Byte) : (cbcE k iv p).length = 16 * (p.length / 16) := length_cbcEBlocks k _ iv p

theorem length_cbcDBlocks (k : List Byte) (n : Nat) (prev c : List Byte) (hp : prev.length = 16)
    (hc : 16 * n ≤ c.length) : (cbcDBlocks k n prev c).length = 16 * n := by
  induction n generalizing prev c with
  | zero => rfl
  | succ n ih =>
    have h1 : (c.take Config.blockLen).length = 16 := by simp [Config.blockLen]; omega
    have h2 : 16 * n ≤ (c.drop Config.blockLen).length := by simp [Config.blockLen]; omega
    simp only [cbcDBlocks, List.length_append, length_xorBytes, length_aesD, hp, ih _ _ h1 h2]
    omega

@[simp] theorem length_deriveIv (k : List Byte) (ssc : BitVec 64) : (deriveIv k ssc).length = 16 := rfl

/-- R193: the length of a ciphertext. -/
theorem length_encData (k : List Byte) (ssc : BitVec 64) (d : List Byte) :
    (encData k ssc d).length = 16 * (d.length / 16 + 1) := by
  rw [encData, length_cbcE, length_pad]; omega

theorem length_unpadScan {k : Nat} {r d : List Byte} (h : unpadScan k r = some d) : d.length < r.length := by
  induction k generalizing r with
  | zero => simp [unpadScan] at h
  | succ k ih =>
    cases r with
    | nil => simp [unpadScan] at h
    | cons b rest =>
      simp only [unpadScan] at h
      split_ifs at h with h1 h2
      · cases h; simp
      · have := ih h; simp; omega

theorem length_unpad {s d : List Byte} (h : unpad s = some d) : d.length < s.length := by
  simpa using length_unpadScan h

/-- R198: a plaintext is shorter than its ciphertext. -/
theorem length_decData {k : List Byte} {ssc : BitVec 64} {c d : List Byte} (h : decData k ssc c = .ok d) :
    d.length < c.length := by
  simp only [decData, check_bind] at h
  split_ifs at h with h1
  split at h
  · rename_i d' hd
    cases h
    have := length_unpad hd
    rw [cbcD, length_cbcDBlocks k _ _ c (length_deriveIv k ssc) (by simp [Config.blockLen]; omega)] at this
    simp [Config.blockLen] at this; omega
  · cases h

theorem length_mac (k m : List Byte) : (mac k m).length ≤ 8 := by
  simp [mac, cmac8, Config.macLen]

theorem length_cmac8Blocks (k : List Byte) (n : Nat) (c p : List Byte) : (cmac8Blocks k (n + 1) c p).length = 16 := by
  induction n generalizing c p with
  | zero => rfl
  | succ n ih => exact ih _ _

/-- R13: a MAC is 8 bytes. -/
theorem length_mac_eq (k m : List Byte) : (mac k m).length = 8 := by
  have h : (pad m).length / 16 = m.length / 16 + 1 := by rw [length_pad]; omega
  simp [mac, cmac8, h, length_cmac8Blocks, Config.macLen]

@[simp] theorem length_protectedHeader (h : List Byte) : (protectedHeader h).length = 4 := rfl

theorem length_do87Of (ct : List Byte) : (do87Of ct).length = 3 + ct.length := by simp [do87Of]; omega

theorem length_buildDo97 (le : Option (List Byte)) : (buildDo97 le).length ≤ 2 + (le.getD []).length := by
  cases le <;> simp [buildDo97]; omega

theorem length_le (s : State) : (s.le.getD []).length ≤ 1 := by
  unfold State.le; split_ifs <;> simp

@[simp] theorem length_inBytes (s : State) : s.inBytes.length = s.inLen.toNat := by simp [State.inBytes]

end Sys2Proof.Machine
end

