-- ==== Sys2Proof/Laws/State.lean ====
section
/-! SUPPORT. One lemma per field for every shared operation on State, so that no later proof unfolds a record update. -/

namespace Sys2Proof.Machine

/-! A completion with an error. -/

@[simp] theorem State.fail_ctrl (s : State) (e : ErrCode) : (s.fail e).ctrl = s.ctrl := rfl

@[simp] theorem State.fail_status (s : State) (e : ErrCode) : (s.fail e).status = s.status.completed (some e) := rfl

@[simp] theorem State.fail_cmd (s : State) (e : ErrCode) : (s.fail e).cmd = s.cmd := rfl

@[simp] theorem State.fail_kcfg (s : State) (e : ErrCode) : (s.fail e).kcfg = s.kcfg := rfl

@[simp] theorem State.fail_sscLo (s : State) (e : ErrCode) : (s.fail e).sscLo = s.sscLo := rfl

@[simp] theorem State.fail_sscHi (s : State) (e : ErrCode) : (s.fail e).sscHi = s.sscHi := rfl

@[simp] theorem State.fail_hdr (s : State) (e : ErrCode) : (s.fail e).hdr = s.hdr := rfl

@[simp] theorem State.fail_inLen (s : State) (e : ErrCode) : (s.fail e).inLen = s.inLen := rfl

@[simp] theorem State.fail_opt (s : State) (e : ErrCode) : (s.fail e).opt = s.opt := rfl

@[simp] theorem State.fail_outLen (s : State) (e : ErrCode) : (s.fail e).outLen = s.outLen := rfl

@[simp] theorem State.fail_sw (s : State) (e : ErrCode) : (s.fail e).sw = s.sw := rfl

@[simp] theorem State.fail_result (s : State) (e : ErrCode) : (s.fail e).result = s.result := rfl

@[simp] theorem State.fail_tag0 (s : State) (e : ErrCode) : (s.fail e).tag0 = s.tag0 := rfl

@[simp] theorem State.fail_tag1 (s : State) (e : ErrCode) : (s.fail e).tag1 = s.tag1 := rfl

@[simp] theorem State.fail_mem (s : State) (e : ErrCode) : (s.fail e).mem = s.mem := rfl

@[simp] theorem State.fail_pending (s : State) (e : ErrCode) : (s.fail e).pending = s.pending := rfl

@[simp] theorem State.fail_responses (s : State) (e : ErrCode) : (s.fail e).responses = s.responses := rfl

@[simp] theorem State.fail_issues (s : State) (e : ErrCode) : (s.fail e).issues = s.issues := rfl

@[simp] theorem State.fail_countdown (s : State) (e : ErrCode) : (s.fail e).countdown = s.countdown := rfl

/-! Writing OUT and OUT_LEN. -/

@[simp] theorem State.writeOut_ctrl (s : State) (b : Option (List Byte)) :
    (s.writeOut b).ctrl = s.ctrl := by cases b <;> rfl

@[simp] theorem State.writeOut_status (s : State) (b : Option (List Byte)) :
    (s.writeOut b).status = s.status := by cases b <;> rfl

@[simp] theorem State.writeOut_cmd (s : State) (b : Option (List Byte)) :
    (s.writeOut b).cmd = s.cmd := by cases b <;> rfl

@[simp] theorem State.writeOut_kcfg (s : State) (b : Option (List Byte)) :
    (s.writeOut b).kcfg = s.kcfg := by cases b <;> rfl

@[simp] theorem State.writeOut_sscLo (s : State) (b : Option (List Byte)) :
    (s.writeOut b).sscLo = s.sscLo := by cases b <;> rfl

@[simp] theorem State.writeOut_sscHi (s : State) (b : Option (List Byte)) :
    (s.writeOut b).sscHi = s.sscHi := by cases b <;> rfl

@[simp] theorem State.writeOut_hdr (s : State) (b : Option (List Byte)) :
    (s.writeOut b).hdr = s.hdr := by cases b <;> rfl

@[simp] theorem State.writeOut_inLen (s : State) (b : Option (List Byte)) :
    (s.writeOut b).inLen = s.inLen := by cases b <;> rfl

@[simp] theorem State.writeOut_opt (s : State) (b : Option (List Byte)) :
    (s.writeOut b).opt = s.opt := by cases b <;> rfl

@[simp] theorem State.writeOut_sw (s : State) (b : Option (List Byte)) : (s.writeOut b).sw = s.sw := by cases b <;> rfl

@[simp] theorem State.writeOut_result (s : State) (b : Option (List Byte)) :
    (s.writeOut b).result = s.result := by cases b <;> rfl

@[simp] theorem State.writeOut_tag0 (s : State) (b : Option (List Byte)) :
    (s.writeOut b).tag0 = s.tag0 := by cases b <;> rfl

@[simp] theorem State.writeOut_tag1 (s : State) (b : Option (List Byte)) :
    (s.writeOut b).tag1 = s.tag1 := by cases b <;> rfl

@[simp] theorem State.writeOut_pending (s : State) (b : Option (List Byte)) :
    (s.writeOut b).pending = s.pending := by cases b <;> rfl

@[simp] theorem State.writeOut_responses (s : State) (b : Option (List Byte)) :
    (s.writeOut b).responses = s.responses := by cases b <;> rfl

@[simp] theorem State.writeOut_issues (s : State) (b : Option (List Byte)) :
    (s.writeOut b).issues = s.issues := by cases b <;> rfl

@[simp] theorem State.writeOut_countdown (s : State) (b : Option (List Byte)) :
    (s.writeOut b).countdown = s.countdown := by cases b <;> rfl

@[simp] theorem State.writeOut_none (s : State) : s.writeOut none = s := rfl

@[simp] theorem State.writeOut_some_mem (s : State) (bs : List Byte) :
    (s.writeOut (some bs)).mem = s.mem.writeBytes Config.outBase bs := rfl

@[simp] theorem State.writeOut_some_outLen (s : State) (bs : List Byte) :
    (s.writeOut (some bs)).outLen = BitVec.ofNat 9 bs.length := rfl

/-! A completion with outputs. -/

@[simp] theorem State.succeed_ctrl (s : State) (o : Outputs) : (s.succeed o).ctrl = s.ctrl := s.writeOut_ctrl o.bytes

@[simp] theorem State.succeed_status (s : State) (o : Outputs) : (s.succeed o).status = s.status.completed none := rfl

@[simp] theorem State.succeed_cmd (s : State) (o : Outputs) : (s.succeed o).cmd = s.cmd := s.writeOut_cmd o.bytes

@[simp] theorem State.succeed_kcfg (s : State) (o : Outputs) : (s.succeed o).kcfg = s.kcfg := s.writeOut_kcfg o.bytes

@[simp] theorem State.succeed_sscLo (s : State) (o : Outputs) :
    (s.succeed o).sscLo = s.sscLo := s.writeOut_sscLo o.bytes

@[simp] theorem State.succeed_sscHi (s : State) (o : Outputs) :
    (s.succeed o).sscHi = s.sscHi := s.writeOut_sscHi o.bytes

@[simp] theorem State.succeed_hdr (s : State) (o : Outputs) : (s.succeed o).hdr = s.hdr := s.writeOut_hdr o.bytes

@[simp] theorem State.succeed_inLen (s : State) (o : Outputs) :
    (s.succeed o).inLen = s.inLen := s.writeOut_inLen o.bytes

@[simp] theorem State.succeed_opt (s : State) (o : Outputs) : (s.succeed o).opt = s.opt := s.writeOut_opt o.bytes

@[simp] theorem State.succeed_outLen (s : State) (o : Outputs) :
    (s.succeed o).outLen = (s.writeOut o.bytes).outLen := rfl

@[simp] theorem State.succeed_sw (s : State) (o : Outputs) : (s.succeed o).sw = o.sw.getD s.sw := rfl

@[simp] theorem State.succeed_result (s : State) (o : Outputs) :
    (s.succeed o).result = ⟨o.matched.getD s.result.matched, o.do87Seen.getD s.result.do87Seen⟩ := rfl

@[simp] theorem State.succeed_tag0 (s : State) (o : Outputs) : (s.succeed o).tag0 = s.tag0 := s.writeOut_tag0 o.bytes

@[simp] theorem State.succeed_tag1 (s : State) (o : Outputs) : (s.succeed o).tag1 = s.tag1 := s.writeOut_tag1 o.bytes

@[simp] theorem State.succeed_mem (s : State) (o : Outputs) : (s.succeed o).mem = (s.writeOut o.bytes).mem := rfl

@[simp] theorem State.succeed_pending (s : State) (o : Outputs) :
    (s.succeed o).pending = s.pending := s.writeOut_pending o.bytes

@[simp] theorem State.succeed_responses (s : State) (o : Outputs) :
    (s.succeed o).responses = s.responses := s.writeOut_responses o.bytes

@[simp] theorem State.succeed_issues (s : State) (o : Outputs) :
    (s.succeed o).issues = s.issues := s.writeOut_issues o.bytes

@[simp] theorem State.succeed_countdown (s : State) (o : Outputs) :
    (s.succeed o).countdown = s.countdown := s.writeOut_countdown o.bytes

/-! The completion of a computed result. -/

@[simp] theorem State.complete_ok (s : State) (o : Outputs) : s.complete (.ok o) = s.succeed o := rfl

@[simp] theorem State.complete_error (s : State) (e : ErrCode) : s.complete (.error e) = s.fail e := rfl

/-! An issue. -/

@[simp] theorem State.issue_ctrl (s : State) (w : Word) : (s.issue w).ctrl = s.ctrl := rfl

@[simp] theorem State.issue_status (s : State) (w : Word) : (s.issue w).status = s.status.issued := rfl

@[simp] theorem State.issue_cmd (s : State) (w : Word) : (s.issue w).cmd = w := rfl

@[simp] theorem State.issue_kcfg (s : State) (w : Word) : (s.issue w).kcfg = s.kcfg := rfl

@[simp] theorem State.issue_sscLo (s : State) (w : Word) : (s.issue w).sscLo = s.sscLo := rfl

@[simp] theorem State.issue_sscHi (s : State) (w : Word) : (s.issue w).sscHi = s.sscHi := rfl

@[simp] theorem State.issue_hdr (s : State) (w : Word) : (s.issue w).hdr = s.hdr := rfl

@[simp] theorem State.issue_inLen (s : State) (w : Word) : (s.issue w).inLen = s.inLen := rfl

@[simp] theorem State.issue_opt (s : State) (w : Word) : (s.issue w).opt = s.opt := rfl

@[simp] theorem State.issue_outLen (s : State) (w : Word) : (s.issue w).outLen = 0 := rfl

@[simp] theorem State.issue_sw (s : State) (w : Word) : (s.issue w).sw = 0 := rfl

@[simp] theorem State.issue_result (s : State) (w : Word) : (s.issue w).result = Result.cleared := rfl

@[simp] theorem State.issue_tag0 (s : State) (w : Word) : (s.issue w).tag0 = s.tag0 := rfl

@[simp] theorem State.issue_tag1 (s : State) (w : Word) : (s.issue w).tag1 = s.tag1 := rfl

@[simp] theorem State.issue_mem (s : State) (w : Word) :
    (s.issue w).mem = s.mem.clear Config.outBase Config.outCap := rfl

@[simp] theorem State.issue_pending (s : State) (w : Word) : (s.issue w).pending = s.pending := rfl

@[simp] theorem State.issue_responses (s : State) (w : Word) : (s.issue w).responses = s.responses := rfl

@[simp] theorem State.issue_issues (s : State) (w : Word) : (s.issue w).issues = s.issues + 1 := rfl

@[simp] theorem State.issue_countdown (s : State) (w : Word) : (s.issue w).countdown = Config.latency s.issues := rfl

/-! A reset. -/

@[simp] theorem State.resetAll_ctrl (s : State) : s.resetAll.ctrl = State.reset.ctrl := rfl

@[simp] theorem State.resetAll_status (s : State) : s.resetAll.status = State.reset.status := rfl

@[simp] theorem State.resetAll_cmd (s : State) : s.resetAll.cmd = State.reset.cmd := rfl

@[simp] theorem State.resetAll_kcfg (s : State) : s.resetAll.kcfg = State.reset.kcfg := rfl

@[simp] theorem State.resetAll_sscLo (s : State) : s.resetAll.sscLo = State.reset.sscLo := rfl

@[simp] theorem State.resetAll_sscHi (s : State) : s.resetAll.sscHi = State.reset.sscHi := rfl

@[simp] theorem State.resetAll_hdr (s : State) : s.resetAll.hdr = State.reset.hdr := rfl

@[simp] theorem State.resetAll_inLen (s : State) : s.resetAll.inLen = State.reset.inLen := rfl

@[simp] theorem State.resetAll_opt (s : State) : s.resetAll.opt = State.reset.opt := rfl

@[simp] theorem State.resetAll_outLen (s : State) : s.resetAll.outLen = State.reset.outLen := rfl

@[simp] theorem State.resetAll_sw (s : State) : s.resetAll.sw = State.reset.sw := rfl

@[simp] theorem State.resetAll_result (s : State) : s.resetAll.result = State.reset.result := rfl

@[simp] theorem State.resetAll_tag0 (s : State) : s.resetAll.tag0 = State.reset.tag0 := rfl

@[simp] theorem State.resetAll_tag1 (s : State) : s.resetAll.tag1 = State.reset.tag1 := rfl

@[simp] theorem State.resetAll_mem (s : State) : s.resetAll.mem = State.reset.mem := rfl

@[simp] theorem State.resetAll_pending (s : State) : s.resetAll.pending = s.pending := rfl

@[simp] theorem State.resetAll_responses (s : State) : s.resetAll.responses = s.responses := rfl

@[simp] theorem State.resetAll_issues (s : State) : s.resetAll.issues = s.issues := rfl

@[simp] theorem State.resetAll_countdown (s : State) : s.resetAll.countdown = State.reset.countdown := rfl

/-! A bus response. -/

@[simp] theorem State.respond_ctrl (s : State) (r : BusResponse) : (s.respond r).ctrl = s.ctrl := rfl

@[simp] theorem State.respond_status (s : State) (r : BusResponse) : (s.respond r).status = s.status := rfl

@[simp] theorem State.respond_cmd (s : State) (r : BusResponse) : (s.respond r).cmd = s.cmd := rfl

@[simp] theorem State.respond_kcfg (s : State) (r : BusResponse) : (s.respond r).kcfg = s.kcfg := rfl

@[simp] theorem State.respond_sscLo (s : State) (r : BusResponse) : (s.respond r).sscLo = s.sscLo := rfl

@[simp] theorem State.respond_sscHi (s : State) (r : BusResponse) : (s.respond r).sscHi = s.sscHi := rfl

@[simp] theorem State.respond_hdr (s : State) (r : BusResponse) : (s.respond r).hdr = s.hdr := rfl

@[simp] theorem State.respond_inLen (s : State) (r : BusResponse) : (s.respond r).inLen = s.inLen := rfl

@[simp] theorem State.respond_opt (s : State) (r : BusResponse) : (s.respond r).opt = s.opt := rfl

@[simp] theorem State.respond_outLen (s : State) (r : BusResponse) : (s.respond r).outLen = s.outLen := rfl

@[simp] theorem State.respond_sw (s : State) (r : BusResponse) : (s.respond r).sw = s.sw := rfl

@[simp] theorem State.respond_result (s : State) (r : BusResponse) : (s.respond r).result = s.result := rfl

@[simp] theorem State.respond_tag0 (s : State) (r : BusResponse) : (s.respond r).tag0 = s.tag0 := rfl

@[simp] theorem State.respond_tag1 (s : State) (r : BusResponse) : (s.respond r).tag1 = s.tag1 := rfl

@[simp] theorem State.respond_mem (s : State) (r : BusResponse) : (s.respond r).mem = s.mem := rfl

@[simp] theorem State.respond_pending (s : State) (r : BusResponse) : (s.respond r).pending = s.pending := rfl

@[simp] theorem State.respond_responses (s : State) (r : BusResponse) :
    (s.respond r).responses = s.responses ++ [r] := rfl

@[simp] theorem State.respond_issues (s : State) (r : BusResponse) : (s.respond r).issues = s.issues := rfl

@[simp] theorem State.respond_countdown (s : State) (r : BusResponse) : (s.respond r).countdown = s.countdown := rfl

/-! An input leaving the queue. -/

@[simp] theorem State.takeInput_ctrl (s : State) (rest : List Input) : (s.takeInput rest).ctrl = s.ctrl := rfl

@[simp] theorem State.takeInput_status (s : State) (rest : List Input) : (s.takeInput rest).status = s.status := rfl

@[simp] theorem State.takeInput_cmd (s : State) (rest : List Input) : (s.takeInput rest).cmd = s.cmd := rfl

@[simp] theorem State.takeInput_kcfg (s : State) (rest : List Input) : (s.takeInput rest).kcfg = s.kcfg := rfl

@[simp] theorem State.takeInput_sscLo (s : State) (rest : List Input) : (s.takeInput rest).sscLo = s.sscLo := rfl

@[simp] theorem State.takeInput_sscHi (s : State) (rest : List Input) : (s.takeInput rest).sscHi = s.sscHi := rfl

@[simp] theorem State.takeInput_hdr (s : State) (rest : List Input) : (s.takeInput rest).hdr = s.hdr := rfl

@[simp] theorem State.takeInput_inLen (s : State) (rest : List Input) : (s.takeInput rest).inLen = s.inLen := rfl

@[simp] theorem State.takeInput_opt (s : State) (rest : List Input) : (s.takeInput rest).opt = s.opt := rfl

@[simp] theorem State.takeInput_outLen (s : State) (rest : List Input) : (s.takeInput rest).outLen = s.outLen := rfl

@[simp] theorem State.takeInput_sw (s : State) (rest : List Input) : (s.takeInput rest).sw = s.sw := rfl

@[simp] theorem State.takeInput_result (s : State) (rest : List Input) : (s.takeInput rest).result = s.result := rfl

@[simp] theorem State.takeInput_tag0 (s : State) (rest : List Input) : (s.takeInput rest).tag0 = s.tag0 := rfl

@[simp] theorem State.takeInput_tag1 (s : State) (rest : List Input) : (s.takeInput rest).tag1 = s.tag1 := rfl

@[simp] theorem State.takeInput_mem (s : State) (rest : List Input) : (s.takeInput rest).mem = s.mem := rfl

@[simp] theorem State.takeInput_pending (s : State) (rest : List Input) : (s.takeInput rest).pending = rest := rfl

@[simp] theorem State.takeInput_responses (s : State) (rest : List Input) :
    (s.takeInput rest).responses = s.responses := rfl

@[simp] theorem State.takeInput_issues (s : State) (rest : List Input) : (s.takeInput rest).issues = s.issues := rfl

@[simp] theorem State.takeInput_countdown (s : State) (rest : List Input) :
    (s.takeInput rest).countdown = if s.status.busy then s.countdown - 1 else s.countdown := rfl

/-! STATUS after a completion, an issue, an acknowledgement and a lost write. -/

@[simp] theorem Status.completed_busy (st : Status) (e : Option ErrCode) : (st.completed e).busy = false := rfl

@[simp] theorem Status.completed_done (st : Status) (e : Option ErrCode) : (st.completed e).done = true := rfl

@[simp] theorem Status.completed_werr (st : Status) (e : Option ErrCode) : (st.completed e).werr = st.werr := rfl

@[simp] theorem Status.completed_locked (st : Status) (e : Option ErrCode) :
    (st.completed e).locked = (st.locked || e == some .auth) := rfl

@[simp] theorem Status.completed_err (st : Status) (e : Option ErrCode) : (st.completed e).err = e := rfl

@[simp] theorem Status.issued_busy (st : Status) : st.issued.busy = true := rfl

@[simp] theorem Status.issued_done (st : Status) : st.issued.done = false := rfl

@[simp] theorem Status.issued_werr (st : Status) : st.issued.werr = st.werr := rfl

@[simp] theorem Status.issued_locked (st : Status) : st.issued.locked = st.locked := rfl

@[simp] theorem Status.issued_err (st : Status) : st.issued.err = none := rfl

@[simp] theorem Status.acknowledged_busy (st : Status) (v : Word) : (st.acknowledged v).busy = st.busy := rfl

@[simp] theorem Status.acknowledged_done (st : Status) (v : Word) :
    (st.acknowledged v).done = (st.done && !v.getLsbD 1) := rfl

@[simp] theorem Status.acknowledged_werr (st : Status) (v : Word) :
    (st.acknowledged v).werr = (st.werr && !v.getLsbD 2) := rfl

@[simp] theorem Status.acknowledged_locked (st : Status) (v : Word) : (st.acknowledged v).locked = st.locked := rfl

@[simp] theorem Status.acknowledged_err (st : Status) (v : Word) : (st.acknowledged v).err = st.err := rfl

@[simp] theorem Status.writeLost_busy (st : Status) : st.writeLost.busy = st.busy := rfl

@[simp] theorem Status.writeLost_done (st : Status) : st.writeLost.done = st.done := rfl

@[simp] theorem Status.writeLost_werr (st : Status) : st.writeLost.werr = true := rfl

@[simp] theorem Status.writeLost_locked (st : Status) : st.writeLost.locked = st.locked := rfl

@[simp] theorem Status.writeLost_err (st : Status) : st.writeLost.err = st.err := rfl

end Sys2Proof.Machine
end

