-- ==== Sys2Proof/Laws/Exec.lean ====
section
/-! SUPPORT. What the completion of any command can do, said once: it completes the state with the command's computed
result, and a byte string in that result fits OUT_BUF. -/

namespace Sys2Proof.Machine

/-- What each command computes from the state at its completion. -/
def resultOf : Instr → State → Except ErrCode Outputs
  | .pad => padResult
  | .deriveIv => deriveIvResult
  | .encData => encDataResult
  | .decData => decDataResult
  | .computeMac => computeMacResult
  | .verifyMac => verifyMacResult
  | .prepare => prepareResult
  | .unwrap => unwrapResult
  | .encBlock => encBlockResult
  | .decBlock => decBlockResult

/-- R275: a command always completes, with its result. -/
theorem exec_eq (i : Instr) (s : State) : exec i s = .next (s.complete (resultOf i s)) := by
  cases i <;> rfl

/-- Every command performs the shared checks first (R272, R273). -/
theorem resultOf_error_of_checks {i : Instr} {s : State} {e : ErrCode} (h : runChecks i s = .error e) :
    resultOf i s = .error e := by
  cases i <;>
    simp [resultOf, padResult, deriveIvResult, encDataResult, decDataResult, computeMacResult, verifyMacResult,
      prepareResult, unwrapResult, encBlockResult, decBlockResult, h]

theorem checks_ok_of_result {i : Instr} {s : State} {o : Outputs} (h : resultOf i s = .ok o) : runChecks i s = .ok () := by
  cases hc : runChecks i s with
  | ok u => rfl
  | error e => rw [resultOf_error_of_checks hc] at h; cases h

theorem inLen_le_of_checks {i : Instr} {s : State} (h : runChecks i s = .ok ()) (hr : readsIn s i = true) :
    s.inLen.toNat ≤ 256 := by
  have := ((runChecks_ok_iff i s).mp h).2.1
  simp [hr, Config.inCap] at this
  omega

theorem length_prepare {kenc kmac : List Byte} {ssc : BitVec 64} {hdr : List Byte} {data le : Option (List Byte)}
    {r : List Byte} (hle : (le.getD []).length ≤ 1) (h : prepare kenc kmac ssc hdr data le = .ok r) : r.length ≤ 256 := by
  have h97 := length_buildDo97 le
  unfold prepare at h
  cases hd : buildDo87 kenc ssc data with
  | error e => simp [hd] at h
  | ok do87 =>
    have h87 : do87.length ≤ 130 := by
      cases data with
      | none => cases hd; simp
      | some d =>
        simp only [buildDo87, check_bind] at hd
        split_ifs at hd with hc
        cases hd
        simp only [decide_eq_true_eq] at hc
        rw [length_do87Of]; omega
    have hm := length_mac kmac (commandMacInput ssc (protectedHeader hdr) do87 (buildDo97 le))
    simp only [hd, ok_bind, assemble, check_bind] at h
    split_ifs at h
    cases h
    simp [do8eOf]
    omega

theorem length_parseDo87 {r do87 : List Byte} {i : Nat} (h : parseDo87 r = .ok (do87, i)) : do87.length ≤ r.length := by
  unfold parseDo87 at h
  split_ifs at h
  · simp only [check_bind] at h
    split_ifs at h with h1 h2 h3
    cases h
    simp [slice]
  · cases h; simp

theorem length_do87Plain {k : List Byte} {ssc : BitVec 64} {do87 d : List Byte} (h : do87Plain k ssc do87 = .ok d) :
    d.length ≤ do87.length := by
  unfold do87Plain at h
  split_ifs at h
  · have := length_decData h
    simp [slice] at this
    omega
  · cases h; simp

/-- R25: a byte string a command produces fits OUT_BUF. -/
theorem result_fits {i : Instr} {s : State} {o : Outputs} {bs : List Byte} (h : resultOf i s = .ok o)
    (hb : o.bytes = some bs) : bs.length ≤ Config.outCap := by
  have hc := checks_ok_of_result h
  cases i <;>
    simp only [resultOf, padResult, deriveIvResult, encDataResult, decDataResult, computeMacResult, verifyMacResult,
      prepareResult, unwrapResult, encBlockResult, decBlockResult, hc, ok_bind, check_bind] at h
  case pad => split_ifs at h with h1; cases h; cases hb; simpa using h1
  case deriveIv => cases h; cases hb; simp [Config.outCap]
  case encData =>
    split_ifs at h with h1
    cases h; cases hb
    rw [length_encData, length_inBytes]
    simpa using h1
  case decData =>
    cases hd : decData s.kenc s.ssc s.inBytes with
    | error e => simp [hd] at h
    | ok d =>
      simp only [hd, ok_bind] at h
      cases h; cases hb
      have h1 := length_decData hd
      have h2 := inLen_le_of_checks hc rfl
      simp at h1
      simp [Config.outCap]; omega
  case computeMac =>
    cases h; cases hb
    have := length_mac s.kmac s.inBytes
    simp [Config.outCap]; omega
  case verifyMac => cases h; cases hb
  case prepare =>
    cases hp : prepare s.kenc s.kmac s.ssc s.header s.data s.le with
    | error e => simp [hp] at h
    | ok r =>
      simp only [hp, ok_bind] at h
      cases h; cases hb
      exact length_prepare (length_le s) hp
  case unwrap =>
    have h2 := inLen_le_of_checks hc rfl
    unfold parseResponse at h
    cases hp : parseDo87 s.inBytes with
    | error e => simp [hp] at h
    | ok v =>
      obtain ⟨do87, i⟩ := v
      have h3 := length_parseDo87 hp
      simp only [hp, ok_bind, check_bind] at h
      split_ifs at h with c1 c2 <;> simp only [ok_bind, error_bind] at h
      · split_ifs at h with c3
        · cases hd : do87Plain s.kenc s.ssc do87 with
          | error e => simp [hd] at h
          | ok d =>
            simp only [hd, ok_bind] at h
            cases h; cases hb
            have h4 := length_do87Plain hd
            simp at h3
            simp [Config.outCap]; omega
      · cases h
      · cases h
  case encBlock => split_ifs at h; cases h; cases hb; simp [Config.outCap]
  case decBlock => split_ifs at h; cases h; cases hb; simp [Config.outCap]

end Sys2Proof.Machine
end

