-- ==== Sys2Proof/Laws/Step.lean ====
section
/-! SUPPORT. What one step can do, said once (the inversion every claim about steps starts from), and the engine's step. -/

namespace Sys2Proof.Machine

/-- The engine's step completes the state with the result of the command in CMD, or with ILLEGAL_CMD. -/
theorem engineStep_eq (s : State) :
    engineStep s = .next (s.complete (match decode s.cmd with
      | .ok i => resultOf i s
      | .error _ => .error .illegalCmd)) := by
  unfold engineStep
  cases decode s.cmd with
  | ok i => exact exec_eq i s
  | error e => rfl

/-- A step that answers a next state is the completion of the command in flight, an idle step, or the next input. -/
theorem step_cases {s t : State} (h : step s = .next t) :
    (s.engineDue = true ∧ engineStep s = .next t) ∨
      (s.engineDue = false ∧ s.pending = [] ∧ t = s) ∨
        (s.engineDue = false ∧ ∃ i rest, s.pending = i :: rest ∧ t = (s.takeInput rest).perform i) := by
  unfold step at h
  split at h
  · rename_i hd; exact .inl ⟨hd, h⟩
  · rename_i hd
    have hd' : s.engineDue = false := by simpa using hd
    split at h
    · rename_i hp; cases h; exact .inr (.inl ⟨hd', hp, rfl⟩)
    · rename_i i rest hp; cases h; exact .inr (.inr ⟨hd', i, rest, hp, rfl⟩)

theorem busy_of_engineDue {s : State} (h : s.engineDue = true) : s.status.busy = true := by
  simp [State.engineDue] at h
  exact h.1

/-- What one input can do: nothing but a response, a write, or a reset. -/
theorem perform_cases (s : State) (i : Input) :
    (∃ r, s.perform i = s.respond r) ∨
      (∃ r v off, i = .write .word off v ∧ regAt off = some r ∧ s.perform i = (s.writeReg r v).respond .written) ∨
        (i = .reset ∧ s.perform i = s.resetAll) := by
  cases i with
  | reset => exact .inr (.inr ⟨rfl, rfl⟩)
  | read w off => exact .inl ⟨_, rfl⟩
  | write w off v =>
    cases w with
    | byte => exact .inl ⟨_, rfl⟩
    | half => exact .inl ⟨_, rfl⟩
    | word =>
      cases hr : regAt off with
      | none => left; exact ⟨.writeError, by simp [State.perform, State.writeAccess, accessReg, hr]⟩
      | some r =>
        right; left
        exact ⟨r, v, off, rfl, hr, by simp [State.perform, State.writeAccess, accessReg, hr]⟩

/-- A write is lost, resets, issues, or applies to one register. -/
theorem writeReg_cases (s : State) (r : Reg) (v : Word) :
    (s.gateOpen r = false ∧ s.writeReg r v = { s with status := s.status.writeLost }) ∨
      (s.gateOpen r = true ∧ s.writeReg r v = s.applyWrite r v) := by
  unfold State.writeReg
  cases s.gateOpen r <;> simp

end Sys2Proof.Machine
end

