-- ==== Sys2Proof/Laws/Bus.lean ====
section
/-! SUPPORT. The address map and the bus: which offsets reach a register and which, what a rejected and an accepted access
are, and what a write to a register can change. -/

namespace Sys2Proof.Machine

theorem regAt_offsetOf (r : Reg) : regAt (offsetOf r) = some r := by
  cases r with
  | kenc j => revert j; decide
  | kmac j => revert j; decide
  | inBuf j => revert j; decide
  | outBuf j => revert j; decide
  | _ => rfl

theorem offsetOf_regAt_all : ∀ off : BitVec 12, ((regAt off).all fun r => offsetOf r == off) = true := by
  decide +kernel

theorem rejects_regAt_all : ∀ off : BitVec 12, (regAt off).isNone =
    (decide (off.toNat % 4 ≠ 0) || decide (off.toNat = 0x03C) ||
      (decide (0x080 ≤ off.toNat) && decide (off.toNat < 0x100)) || decide (0x300 ≤ off.toNat)) := by
  decide +kernel

/-- R32: an offset reaches a register exactly when it is that register's. -/
theorem regAt_eq_some_iff (off : BitVec 12) (r : Reg) : regAt off = some r ↔ off = offsetOf r := by
  constructor
  · intro h
    have := offsetOf_regAt_all off
    simp only [h, Option.all_some, beq_iff_eq] at this
    exact this.symm
  · rintro rfl; exact regAt_offsetOf r

/-- R84: the bus rejects an access exactly when it reaches no register. -/
theorem busRejects_iff (width : Width) (off : BitVec 12) : BusRejects width off ↔ accessReg width off = none := by
  cases width with
  | byte => simp [BusRejects, accessReg]
  | half => simp [BusRejects, accessReg]
  | word =>
    have h := rejects_regAt_all off
    simp only [accessReg, ← Option.isNone_iff_eq_none, h]
    simp only [BusRejects, Bool.or_eq_true, Bool.and_eq_true, decide_eq_true_eq]
    simp
    tauto

theorem perform_read (s : State) (width : Width) (off : BitVec 12) :
    s.perform (.read width off) = s.respond (s.readAnswer width off) := rfl

theorem perform_write_word {off : BitVec 12} {r : Reg} (h : regAt off = some r) (s : State) (v : Word) :
    s.perform (.write .word off v) = (s.writeReg r v).respond .written := by
  simp [State.perform, State.writeAccess, accessReg, h]

@[simp] theorem perform_wr (s : State) (r : Reg) (v : Word) :
    s.perform (wr r v) = (s.writeReg r v).respond .written := perform_write_word (regAt_offsetOf r) s v

theorem applyWrite_responses (s : State) (r : Reg) (v : Word) : (s.applyWrite r v).responses = s.responses := by
  cases r <;> simp [State.applyWrite]
  split <;> rfl

theorem writeReg_responses (s : State) (r : Reg) (v : Word) : (s.writeReg r v).responses = s.responses := by
  rcases writeReg_cases s r v with ⟨_, h⟩ | ⟨_, h⟩ <;> rw [h]
  exact applyWrite_responses s r v

theorem gateOpen_idle {s : State} (h : s.status.busy = false) (r : Reg) : s.gateOpen r = true := by
  simp [State.gateOpen, h]

theorem writeReg_idle {s : State} (h : s.status.busy = false) (r : Reg) (v : Word) :
    s.writeReg r v = s.applyWrite r v := by
  simp [State.writeReg, gateOpen_idle h]

theorem writeReg_lost {s : State} (h : s.status.busy = true) {r : Reg} (h1 : r ≠ .ctrl) (h2 : r ≠ .status) (v : Word) :
    s.writeReg r v = { s with status := s.status.writeLost } := by
  simp [State.writeReg, State.gateOpen, h, h1, h2]

@[simp] theorem writeReg_ctrl (s : State) (v : Word) : s.writeReg .ctrl v = s.applyWrite .ctrl v := by
  simp [State.writeReg, State.gateOpen]

@[simp] theorem writeReg_status (s : State) (v : Word) : s.writeReg .status v = s.applyWrite .status v := by
  simp [State.writeReg, State.gateOpen]

/-- R311: a CTRL write with SRST = 1. -/
theorem applyWrite_ctrl_srst {v : Word} (h : v.getLsbD 0 = true) (s : State) : s.applyWrite .ctrl v = s.resetAll := by
  simp only [State.applyWrite, srst, h, if_true]

/-- R311: a CTRL write with SRST = 0. -/
theorem applyWrite_ctrl_ie {v : Word} (h : v.getLsbD 0 = false) (s : State) :
    s.applyWrite .ctrl v = { s with ctrl := { ie := v.getLsbD 1 } } := by
  simp only [State.applyWrite, srst, h]
  rfl

/-- R310, R311: an input that is no reset is an access. -/
theorem isReset_wr_ctrl (v : Word) : isReset (wr .ctrl v) = srst v := by
  simp [isReset, wr, offsetOf]

theorem isReset_write {off : BitVec 12} (h : off ≠ 0x004) (v : Word) : isReset (.write .word off v) = false := by
  simp only [isReset, Bool.and_eq_false_iff, beq_eq_false_iff_ne]
  exact .inl h

end Sys2Proof.Machine
end

