-- ==== Sys2Proof/Laws/Complete.lean ====
section
/-! SUPPORT. The completions in the words of Safety.lean: what a failed and a successful completion change and leave
unchanged. -/

namespace Sys2Proof.Machine

theorem fail_endsWithError (s : State) (e : ErrCode) : EndsWithError s (s.fail e) e where
  inputs := by constructor <;> rfl
  status := ⟨rfl, rfl, rfl, rfl, rfl⟩
  outLen := rfl
  sw := rfl
  result := rfl
  mem _ := rfl

theorem succeed_inputsKept (s : State) (o : Outputs) : InputsKept s (s.succeed o) := by
  constructor <;> simp

theorem succeed_status (s : State) (o : Outputs) : StatusAfter s (s.succeed o) none :=
  ⟨rfl, rfl, rfl, rfl, by simp⟩

/-- The memory after a result string was written to OUT. -/
theorem read_writeOut (s : State) (bs : List Byte) (a : Nat) :
    (s.writeOut (some bs)).mem.read a =
      if Config.outBase ≤ a ∧ a < Config.outBase + bs.length then byteAt bs (a - Config.outBase) else s.mem.read a :=
  Memory.read_writeBytes bs s.mem Config.outBase a

theorem outLen_writeOut (s : State) {bs : List Byte} (h : bs.length ≤ Config.outCap) :
    (s.writeOut (some bs)).outLen.toNat = bs.length := by
  simp only [State.writeOut_some_outLen, BitVec.toNat_ofNat, Config.outCap] at *
  omega

theorem succeed_endsWithBytes (s : State) {bs : List Byte} (h : bs.length ≤ Config.outCap) :
    EndsWithBytes s (s.succeed { bytes := some bs }) bs where
  inputs := succeed_inputsKept s _
  status := succeed_status s _
  outLen := outLen_writeOut s h
  sw := rfl
  result := rfl
  mem := read_writeOut s bs

theorem succeed_endsWithMatch (s : State) (b : Bool) : EndsWithMatch s (s.succeed { matched := some b }) b where
  inputs := succeed_inputsKept s _
  status := succeed_status s _
  outLen := rfl
  sw := rfl
  matched := rfl
  do87Seen := rfl
  mem _ := rfl

theorem succeed_endsWithPlain (s : State) {bs : List Byte} (sw : BitVec 16) (seen : Bool)
    (h : bs.length ≤ Config.outCap) :
    EndsWithPlain s (s.succeed { bytes := some bs, sw := some sw, do87Seen := some seen }) bs sw seen where
  inputs := succeed_inputsKept s _
  status := succeed_status s _
  outLen := outLen_writeOut s h
  sw := rfl
  matched := rfl
  do87Seen := rfl
  mem := read_writeOut s bs

end Sys2Proof.Machine
end

