-- ==== Sys2Proof/Laws/Inputs.lean ====
section
/-! SUPPORT. What one input of the outside world can change: a reset, an input while a command is in flight, and the lock. -/

namespace Sys2Proof.Machine

/-- R86: a register write while BUSY = 1 is a CTRL write or changes nothing but STATUS, and of it neither BUSY, LOCKED nor ERR. -/
theorem busy_write {s : State} (hb : s.status.busy = true) (r : Reg) (v : Word) : (r = .ctrl ∧ s.writeReg r v = s.applyWrite r v) ∨ (∃ st : Status, st.busy = true ∧ st.locked = s.status.locked ∧ st.err = s.status.err ∧ s.writeReg r v = { s with status := st }) := by
  by_cases h1 : r = .ctrl
  · subst h1; left; simp
  · right
    by_cases h2 : r = .status
    · subst h2; exact ⟨s.status.acknowledged v, hb, rfl, rfl, by simp [State.applyWrite]⟩
    · exact ⟨s.status.writeLost, hb, rfl, rfl, writeReg_lost hb h1 h2 v⟩

/-- R86, R93: an input other than a reset while BUSY = 1 changes nothing but CTRL, STATUS (neither BUSY, LOCKED nor ERR) and the
responses. -/
theorem busy_perform {s : State} (hb : s.status.busy = true) (i : Input) (hi : isReset i = false) :
   ∃ (c : Ctrl) (st : Status) (rs : List BusResponse), st.busy = true ∧ st.locked = s.status.locked ∧ st.err = s.status.err ∧ s.perform i = { s with ctrl := c, status := st, responses := rs } := by
  rcases perform_cases s i with ⟨r, h⟩ | ⟨r, v, off, rfl, hr, h⟩ | ⟨rfl, h⟩
  · exact ⟨s.ctrl, s.status, _, hb, rfl, rfl, h⟩
  · rcases busy_write hb r v with ⟨rfl, h2⟩ | ⟨st, h1, h2, h3, h4⟩
    · have ho := (regAt_eq_some_iff off _).mp hr
      subst ho
      have hs : srst v = false := by rw [← isReset_wr_ctrl]; exact hi
      rw [applyWrite_ctrl_ie hs] at h2
      exact ⟨⟨v.getLsbD 1⟩, s.status, _, hb, rfl, rfl, by rw [h, h2]; rfl⟩
    · exact ⟨s.ctrl, st, _, h1, h2, h3, by rw [h, h4]; rfl⟩
  · cases hi

/-- R310, R311: every resetting input makes the reset, up to the response. -/
theorem reset_perform {s : State} {i : Input} (hi : isReset i = true) : ∃ rs, s.perform i = { s.resetAll with responses := rs } := by
  rcases perform_cases s i with ⟨r, h⟩ | ⟨r, v, off, rfl, hr, h⟩ | ⟨rfl, h⟩
  · cases i with
    | read w o => cases hi
    | reset => exact ⟨_, rfl⟩
    | write w off v =>
      cases w with
      | byte => cases hi
      | half => cases hi
      | word =>
        simp only [isReset, Bool.and_eq_true, beq_iff_eq] at hi
        obtain ⟨rfl, hs⟩ := hi
        have : s.perform (.write .word 0x004 v) = _ := perform_wr s .ctrl v
        rw [this, writeReg_ctrl, applyWrite_ctrl_srst hs]; exact ⟨_, rfl⟩
  · simp only [isReset, Bool.and_eq_true, beq_iff_eq] at hi
    obtain ⟨rfl, hs⟩ := hi
    have : s.perform (.write .word 0x004 v) = _ := perform_wr s .ctrl v
    rw [this, writeReg_ctrl, applyWrite_ctrl_srst hs]; exact ⟨_, rfl⟩
  · exact ⟨_, h⟩

/-- R278: an input other than a reset keeps LOCKED. -/
theorem perform_locked {s : State} {i : Input} (hi : isReset i = false) : (s.perform i).status.locked = s.status.locked := by
  rcases perform_cases s i with ⟨r, he⟩ | ⟨r, v, off, rfl, hr, he⟩ | ⟨rfl, he⟩
  · rw [he]; rfl
  · rw [he]
    rcases writeReg_cases s r v with ⟨_, hw⟩ | ⟨hg, hw⟩ <;> rw [hw]
    · rfl
    · cases r <;> try rfl
      have := (regAt_eq_some_iff off _).mp hr
      subst this
      have hs : srst v = false := by rw [← isReset_wr_ctrl]; exact hi
      rw [applyWrite_ctrl_ie hs]; rfl
  · cases hi

end Sys2Proof.Machine
end

