-- ==== Sys2Proof/Laws/PerInstr.lean ====
section
/-! SUPPORT. Facts proved per constructor of Instr: the family LegalWord, that a command's word is legal (30_encoding.md
R115), is the one word of its opcode (R110, R112), and that the table's numbering of it reads back as the command. -/

namespace Sys2Proof.Laws.LegalWord

/-- The word of a command is legal, its RSVD is zero, and the decoder reads the command from it as the table numbers it. -/
def Statement (i : Instr) : Prop :=
  i.wf = true ∧ legalWord (encode i) = true ∧ rsvd (encode i) = 0 ∧ decodeTableWord 32 (encode i).toNat = some i

theorem pad : Statement .pad := by unfold Statement; decide
theorem deriveIv : Statement .deriveIv := by unfold Statement; decide
theorem encData : Statement .encData := by unfold Statement; decide
theorem decData : Statement .decData := by unfold Statement; decide
theorem computeMac : Statement .computeMac := by unfold Statement; decide
theorem verifyMac : Statement .verifyMac := by unfold Statement; decide
theorem prepare : Statement .prepare := by unfold Statement; decide
theorem unwrap : Statement .unwrap := by unfold Statement; decide
theorem encBlock : Statement .encBlock := by unfold Statement; decide
theorem decBlock : Statement .decBlock := by unfold Statement; decide

end Sys2Proof.Laws.LegalWord
end

