-- ==== Sys2Proof/Laws/Strings.lean ====
section
/-! SUPPORT. Byte strings in 16-byte blocks and exclusive-or. -/

namespace Sys2Proof.Machine

/-- The blocks after the first. -/
theorem slice_cons (a b : List Byte) (ha : a.length = 16) (j : Nat) : slice (a ++ b) (16*(j+1)) (16*(j+1)+16) = slice b (16*j) (16*j+16) := by
  unfold slice
  have e : List.drop (16*(j+1)) (a++b) = b.drop (16*j) := by
    have : 16*(j+1) = a.length + 16*j := by omega
    rw [this]; simp
  rw [e]; congr 1; omega

/-- The first block. -/
theorem slice_head (a b : List Byte) (ha : a.length = 16) : slice (a ++ b) 0 16 = a := by simp [slice, ha]

/-- A block of the string without its first block. -/
theorem slice_drop (p : List Byte) (j : Nat) : slice (p.drop 16) (16*j) (16*j+16) = slice p (16*(j+1)) (16*(j+1)+16) := by
  unfold slice; rw [List.drop_drop]; congr 1; · omega
  congr 1; omega

/-- A range in two. -/
theorem slice_split (r : List Byte) (a b c : Nat) (h1 : a ≤ b) (h2 : b ≤ c) : slice r a c = slice r a b ++ slice r b c := by
  unfold slice
  have e : r.drop b = (r.drop a).drop (b - a) := by rw [List.drop_drop]; congr 1; omega
  rw [e, show c - a = (b - a) + (c - b) by omega, List.take_add]

/-- The whole range. -/
theorem slice_all (r : List Byte) : slice r 0 r.length = r := by simp [slice]

/-- R17: exclusive-or with the same string twice. -/
theorem xorBytes_cancel (a c : List Byte) (h : a.length = c.length) : xorBytes (xorBytes a c) c = a := by
  induction a generalizing c with
  | nil => simp [xorBytes]
  | cons x a ih =>
    cases c with
    | nil => simp at h
    | cons y c => 
      have := ih c (by simpa using h)
      simp [xorBytes] at this ⊢
      exact this

end Sys2Proof.Machine
end

