-- ==== Sys2Proof/Laws/Words.lean ====
section
/-! SUPPORT. Byte lanes and words of the byte memory (20_memory.md R81, R82). -/

namespace Sys2Proof.Machine

/-- R81: lane i of a word. -/
theorem lanes_getD (v : Word) (i : Nat) (h : i < 4) : (lanes v).getD i 0 = v.extractLsb' (8 * i) 8 := by
  interval_cases i <;> rfl

/-- R82: a byte after a word was written. -/
theorem read_writeWord (m : Memory) (b a : Nat) (v : Word) :
  (m.writeWord b v).read a = if b ≤ a ∧ a < b + 4 then v.extractLsb' (8 * (a - b)) 8 else m.read a := by
  rw [Memory.writeWord, Memory.read_writeBytes, length_lanes]
  by_cases h : b ≤ a ∧ a < b + 4
  · rw [if_pos h, if_pos h]; exact lanes_getD v (a - b) (by omega)
  · rw [if_neg h, if_neg h]

/-- R82: a lane of the word made from four bytes. -/
theorem ofLanes_byte (a b c d : Byte) (i : Fin 4) : (ofLanes [a,b,c,d]).extractLsb' (8*i.val) 8 = [a,b,c,d].getD i.val 0 := by
  apply BitVec.eq_of_getLsbD_eq
  intro j hj
  fin_cases i <;> simp only [ofLanes, BitVec.getLsbD_extractLsb', BitVec.getLsbD_append] <;> interval_cases j <;> simp

/-- R82: the word at an offset, byte by byte. -/
theorem readWord_eq (m : Memory) (a : Nat) : m.readWord a = ofLanes [m.read a, m.read (a+1), m.read (a+2), m.read (a+3)] := rfl

/-- Words with equal lanes are equal. -/
theorem word_ext {v w : Word} (h : ∀ i : Fin 4, v.extractLsb' (8*i.val) 8 = w.extractLsb' (8*i.val) 8) : v = w := by
  apply BitVec.eq_of_getLsbD_eq
  intro j hj
  have h1 := congrArg (fun x => BitVec.getLsbD x (j % 8)) (h ⟨j/8, by omega⟩)
  simp only [BitVec.getLsbD_extractLsb'] at h1
  have e : 8 * (j/8) + j % 8 = j := by omega
  have : j % 8 < 8 := by omega
  simpa [e, this] using h1

/-- Words read from where the four bytes agree are equal. -/
theorem readWord_congr {m m' : Memory} {a : Nat} (h : ∀ i, i < 4 → m.read (a + i) = m'.read (a + i)) : m.readWord a = m'.readWord a := by
  simp only [Memory.readWord, Memory.readBytes_congr h]

/-- R82: a word written elsewhere leaves a word alone. -/
theorem readWord_writeWord_ne (m : Memory) (a b : Nat) (v : Word) (h : a + 4 ≤ b ∨ b + 4 ≤ a) :
    (m.writeWord b v).readWord a = m.readWord a :=
  readWord_congr fun i hi => by rw [read_writeWord, if_neg (by omega)]

end Sys2Proof.Machine
end

