-- ==== Sys2Proof/Tests/Slice0.lean ====
section
/-! SUPPORT. Tests: ill-formed terms the checks refuse, every command word written out from 30_encoding.md, one completion step
per command against the vectors of 95_test_vectors.md, the bus and STATUS behaviour of L2.9 and L2.10; and, for every
obligation with hypotheses, a named witness that meets them. Every expected value is the spec's (the vector is named in the
comment), never the model's own answer. -/

namespace Sys2Proof.Machine.Tests

set_option Elab.async false

/-! ### Helpers -/

/-- The SRC kenc (95_test_vectors.md, "the SRC keys"). -/
def srcKenc : List Byte := be 32 0x18452162cc454615f6881db69aa1b3335e8743d7871985a31cc7db804bc9fdf3

/-- The SRC kmac. -/
def srcKmac : List Byte := be 32 0xc68bc4e85e0e8f168670c956563e6c9b3de38af822894f3547bc3c0d6f047f0b

/-- An idle machine with these keys, this counter and this input. -/
def keyedState (ke km : List Byte) (ssc : BitVec 64) (ins : List Byte) : State :=
  { State.reset with
    kcfg := { kencLen := BitVec.ofNat 6 ke.length, kmacLen := BitVec.ofNat 6 km.length }
    sscLo := ssc.extractLsb' 0 32
    sscHi := ssc.extractLsb' 32 32
    inLen := BitVec.ofNat 9 ins.length
    mem := (Memory.writeBytes (Memory.writeBytes (Memory.writeBytes [] 0x040 ke) 0x060 km) 0x100 ins) }

/-- An idle machine with the SRC keys. -/
def session (ssc : BitVec 64) (ins : List Byte) : State := keyedState srcKenc srcKmac ssc ins

/-- STATUS and OUT[0..OUT_LEN) after the next step; none if it stops. -/
def after (s : State) : Option (Word × List Byte) :=
  match step s with
  | .next t => some (t.readReg .status, t.mem.readBytes 0x200 t.outLen.toNat)
  | .fault _ => none
  | .refused _ => none

/-- A register after the next step. -/
def regAfter (r : Reg) (s : State) : Option Word :=
  match step s with
  | .next t => some (t.readReg r)
  | .fault _ => none
  | .refused _ => none

/-- The plaintext block of FIPS-197 Appendix C. -/
def fipsPlain : List Byte := be 16 0x00112233445566778899aabbccddeeff

/-- The response of L2.8 for counter 6. -/
def response6 : List Byte := be 33 0x8711014eda48c1fc12cf1ab1142f4adedd6eae990290008e08d7e98f58a6a9172a

/-! ### Well-formedness refuses ill-formed terms -/

theorem test_legalWord_refuses : (legalWord 0x00000000 || legalWord 0x0000000B || legalWord 0x000000FF ||
    legalWord 0x00000101 || legalWord 0x0100000A) = false := by decide
theorem test_rsvd_and_opcode_checks : rsvdZero 0x00000107 = false ∧ opcodeAssigned 0x00000107 = true ∧
    opcodeAssigned 0x00000000 = false ∧ opcodeAssigned 0x0000000B = false := by decide
theorem test_access_refuses_width : accessAccepted .byte 0x000 = false ∧ accessAccepted .half 0x100 = false := by decide
theorem test_access_refuses_unaligned : aligned 0x002 = false ∧ accessAccepted .word 0x101 = false := by decide
theorem test_access_refuses_reserved : (mapped 0x03C || mapped 0x080 || mapped 0x0FC || mapped 0x300 || mapped 0xFFC) = false ∧
    (mapped 0x038 && mapped 0x040 && mapped 0x07C && mapped 0x100 && mapped 0x2FC) = true := by decide
theorem test_input_wf : Input.wf (.read .word 0x03C) = false ∧ Input.wf (.write .byte 0x000 0) = false ∧
    Input.wf .reset = true := by decide

/-! ### The words of R112, bit by bit: RSVD [31:8], OPCODE [7:0] -/

theorem test_decode_pad : decode 0b00000000000000000000000000000001#32 = .ok .pad := by decide
theorem test_decode_deriveIv : decode 0b00000000000000000000000000000010#32 = .ok .deriveIv := by decide
theorem test_decode_encData : decode 0b00000000000000000000000000000011#32 = .ok .encData := by decide
theorem test_decode_decData : decode 0b00000000000000000000000000000100#32 = .ok .decData := by decide
theorem test_decode_computeMac : decode 0b00000000000000000000000000000101#32 = .ok .computeMac := by decide
theorem test_decode_verifyMac : decode 0b00000000000000000000000000000110#32 = .ok .verifyMac := by decide
theorem test_decode_prepare : decode 0b00000000000000000000000000000111#32 = .ok .prepare := by decide
theorem test_decode_unwrap : decode 0b00000000000000000000000000001000#32 = .ok .unwrap := by decide
theorem test_decode_encBlock : decode 0b00000000000000000000000000001001#32 = .ok .encBlock := by decide
theorem test_decode_decBlock : decode 0b00000000000000000000000000001010#32 = .ok .decBlock := by decide

/-- R115: the illegal words of L2.9, by name. -/
theorem test_decode_rejects : decode 0x00000000 = .error .opcodeUnassigned ∧ decode 0x0000000B = .error .opcodeUnassigned ∧
    decode 0x00000107 = .error .rsvdNonzero ∧ decodeBytes [0x07, 0x00, 0x00] = .error .shortWord := by decide

/-- R81: the first byte of a command word is its lane 0. -/
theorem test_decodeBytes_lane_order : decodeBytes [0x08, 0x00, 0x00, 0x00, 0x55] = .ok (.unwrap, [0x55]) ∧
    decodeBytes [0x00, 0x00, 0x00, 0x08] = .error .rsvdNonzero := by decide
theorem test_decodeTableWord : decodeTableWord 32 7 = some .prepare ∧ decodeTableWord 8 0x07 = some .prepare ∧
    decodeTableWord 32 0x107 = none := by decide

/-! ### One completion step per command -/

/-- GV1. -/
theorem test_pad : after ((session 1 [0x50, 0x00]).withFetchWord 32 0x1) = some (0x002, 0x50 :: 0x00 :: 0x80 :: zeros 13) := by
  decide +kernel

/-- L2.1: 256 bytes do not fit. -/
theorem test_pad_too_long : after ({ State.reset with inLen := 256 }.withFetchWord 32 0x1) = some (0x502, []) := by
  decide +kernel

/-- L2.4, SSC = 1. -/
theorem test_deriveIv : after ((session 1 []).withFetchWord 32 0x2) =
    some (0x002, be 16 0xc67a844cc9e7082e179c110a39927470) := by decide +kernel

/-- L2.4, SSC = 2^64 − 1. -/
theorem test_deriveIv_top : after ((session 0xFFFFFFFFFFFFFFFF []).withFetchWord 32 0x2) =
    some (0x002, be 16 0x608018e1bdaee02baae968385537f1e2) := by decide +kernel

/-- GV2. -/
theorem test_encData : after ((session 1 [0x50, 0x00]).withFetchWord 32 0x3) =
    some (0x002, be 16 0x9068db9e71676629b3faa7b12632c730) := by decide +kernel

/-- L2.6, n = 16: two chained blocks. -/
theorem test_encData_chained : after ((session 1 (be 16 0x000102030405060708090a0b0c0d0e0f)).withFetchWord 32 0x3) =
    some (0x002, be 32 0xb5a29a7a5b0090ad7535d457a1c0d2663ad09a183074d05cd5fe01e8370fb5fe) := by decide +kernel

/-- L2.2, the first row. -/
theorem test_decData : after ((session 1 (be 16 0x9068db9e71676629b3faa7b12632c730)).withFetchWord 32 0x4) =
    some (0x002, [0x50, 0x00]) := by decide +kernel

/-- L2.2: the wrong counter is an AUTH error and locks. -/
theorem test_decData_auth : after ((session 2 (be 16 0x9068db9e71676629b3faa7b12632c730)).withFetchWord 32 0x4) =
    some (0x30A, []) := by decide +kernel

/-- L2.5, the input 00. -/
theorem test_computeMac : after ((session 0 [0x00]).withFetchWord 32 0x5) = some (0x002, be 8 0xb75f7d87ad309a5f) := by
  decide +kernel

/-- L2.5, the tag of the input 00: a match. -/
theorem test_verifyMac : regAfter .result
    ({ session 0 [0x00] with tag0 := 0x877d5fb7, tag1 := 0x5f9a30ad }.withFetchWord 32 0x6) = some 0x1 := by decide +kernel

/-- L2.5, the tag of the input 00 with one bit flipped: no match, and no error. -/
theorem test_verifyMac_mismatch :
    let s := State.withFetchWord { session 0 [0x00] with tag0 := 0x877d5fb7, tag1 := 0x5f9a30ac } 32 0x6
    regAfter .result s = some 0x0 ∧ regAfter .status s = some 0x002 := by decide +kernel

/-- GV3. -/
theorem test_prepare : after ({ session 1 [0x50, 0x00] with
      hdr := 0x0C01A400, opt := Opt.ofWord 0x00000001 }.withFetchWord 32 0x7) =
    some (0x002, be 35 0x0ca4010c1d8711019068db9e71676629b3faa7b12632c7308e0880d7b85009f5e6c000) := by decide +kernel

/-- GV4. -/
theorem test_prepare_le : after ({ session 5 [] with hdr := 0x0000B000, opt := Opt.ofWord 0x00000006 }.withFetchWord 32 0x7) =
    some (0x002, be 19 0x0cb000000d9701008e08cc31bd80e0f53b2a00) := by decide +kernel

/-- L2.8, SSC = 6: plaintext, SW and DO87_SEEN. -/
theorem test_unwrap :
    let s := (session 6 response6).withFetchWord 32 0x8
    after s = some (0x002, [1, 2, 3, 4, 5, 6]) ∧ regAfter .sw s = some 0x9000 ∧ regAfter .result s = some 0x2 := by
  decide +kernel

/-- L2.8: a trailing byte is an AUTH error. -/
theorem test_unwrap_trailing_byte :
    after ((session 2 (be 15 0x990290008e08c05389cdf720febe00)).withFetchWord 32 0x8) = some (0x30A, []) := by decide +kernel

/-- L2.3, the 16-byte key. -/
theorem test_encBlock : after ((keyedState (be 16 0x000102030405060708090a0b0c0d0e0f) (zeros 16) 0 fipsPlain).withFetchWord 32 0x9) =
    some (0x002, be 16 0x69c4e0d86a7b0430d8cdb78070b4c55a) := by decide +kernel

/-- L2.3: one byte short. -/
theorem test_encBlock_length : after ((session 0 (zeros 15)).withFetchWord 32 0x9) = some (0x102, []) := by decide +kernel

/-- L2.3, the 24-byte key. -/
theorem test_decBlock : after ((keyedState (be 24 0x000102030405060708090a0b0c0d0e0f1011121314151617) (zeros 24) 0
      (be 16 0xdda97ca4864cdfe06eaf70a0ec0d7191)).withFetchWord 32 0xA) = some (0x002, fipsPlain) := by decide +kernel

/-- L2.3: KENC_LEN 32, KMAC_LEN 16. -/
theorem test_decBlock_keys : after ((keyedState (zeros 32) (zeros 16) 0 (zeros 16)).withFetchWord 32 0xA) = some (0x102, []) := by
  decide +kernel

/-! ### Priority of the errors (L2.9) -/

/-- LOCKED = 1, the word 0x107: ILLEGAL_CMD first. -/
theorem test_illegal_before_locked :
    after ({ State.reset with status := { Status.reset with locked := true } }.withFetchWord 32 0x107) = some (0x40A, []) := by
  decide +kernel
/-- LOCKED = 1, IN_LEN = 300: LOCKED before LENGTH. -/
theorem test_locked_before_length :
    after ({ State.reset with status := { Status.reset with locked := true }, inLen := 300 }.withFetchWord 32 0x3) =
      some (0x60A, []) := by decide +kernel
/-- IN_LEN = 300, KCFG = 0: LENGTH before CRYPTO. -/
theorem test_length_before_crypto : after ({ State.reset with inLen := 300 }.withFetchWord 32 0x3) = some (0x502, []) := by
  decide +kernel

/-! ### Registers, bus and interrupt (L2.10, L3) -/

theorem test_id : State.reset.readAnswer .word 0x000 = .data 0x534D0100 ∧
    State.reset.readAnswer .word 0x03C = .readError 0 ∧ State.reset.readAnswer .half 0x000 = .readError 0 := by decide
/-- The common STATUS values of 95_test_vectors.md, one per error code of R271. -/
theorem test_status_codes : [none, some .crypto, some .encoding, some .auth, some .illegalCmd, some .length, some .locked].map
    (fun e => ({ busy := false, done := true, werr := false, locked := e == some .auth || e == some .locked, err := e } : Status).word) =
      [0x002, 0x102, 0x202, 0x30A, 0x402, 0x502, 0x60A] := by decide
theorem test_key_write_only : (State.reset.writeReg (.kenc 0) 0x62214518).readReg (.kenc 0) = 0 := by decide
/-- P1: the word 0x62214518 at 0x040 holds the key's first bytes 18 45 21 62. -/
theorem test_lanes : (State.reset.writeReg (.kenc 0) 0x62214518).mem.readBytes 0x040 4 = [0x18, 0x45, 0x21, 0x62] := by decide
theorem test_inLen_bits : (State.reset.writeReg .inLen 0xFFFFFFFF).readReg .inLen = 0x1FF := by decide
theorem test_kcfg_bits : (State.reset.writeReg .kcfg 0xFFFFFFFF).readReg .kcfg = 0x3F3F := by decide
theorem test_opt_bits : (State.reset.writeReg .opt 0xFFFFFFFF).readReg .opt = 0xFF07 := by decide
/-- P5, completion after the write: the write is lost and sets WERR. -/
theorem test_write_while_busy :
    let s := { State.withFetchWord { State.reset with inLen := 2 } 32 0x1 with countdown := 1, pending := [wr .inLen 5] }
    regAfter .inLen s = some 2 ∧ regAfter .status s = some 0x005 := by decide +kernel
/-- P5, completion before the write: the completion is the step, and the write still waits. -/
theorem test_completion_first :
    let s := { State.withFetchWord { State.reset with inLen := 2 } 32 0x1 with pending := [wr .inLen 5] }
    after s = some (0x002, 0x00 :: 0x00 :: 0x80 :: zeros 13) ∧ regAfter .inLen s = some 2 := by decide +kernel
theorem test_irq_and_acknowledge :
    let s := { State.reset with ctrl := { ie := true }, status := { Status.reset with done := true, werr := true } }
    s.irq = true ∧ (s.writeReg .status 0x2).irq = false ∧ (s.writeReg .status 0x4).readReg .status = 0x002 ∧
      (s.writeReg .ctrl 0x0).irq = false := by decide
theorem test_soft_reset : ((session 1 [0x50]).writeReg .ctrl 0x3) = State.reset := by decide +kernel
/-- P1: the writes of setkeys and setssc. -/
theorem test_boot_writes : (boot 32 srcKenc srcKmac 1 false).take 2 = [wr (.kenc 0) 0x62214518, wr (.kenc 1) 0x154645CC] ∧
    (boot 32 srcKenc srcKmac 1 false).drop 16 = [wr .kcfg 0x2020, wr .sscLo 1, wr .sscHi 0] := by decide +kernel
/-- R315: the result of a command is what the first STATUS read with BUSY = 0 finds. -/
theorem test_command_end :
    let s := { State.withFetchWord State.reset 32 0x1 with pending := [rd .status] }
    (commandEnd (hostTrace 3 s)).map (fun o => (o.err, o.outLen, o.out)) = some (none, 16, 0x80 :: zeros 15) := by
  decide +kernel
/-- R95: a step of instance 1 leaves instance 0 alone. -/
theorem test_platform_step :
    let p : Platform := { instances := [State.reset, State.reset] }
    (match (p.deliver 1 (wr .inLen 5)).stepAt 1 with
      | .next q => q.instances.map (fun t => t.readReg .inLen)
      | .fault _ => []
      | .refused _ => []) = [0, 5] := by decide +kernel
/-- R322: the counters of an exchange under both policies. -/
theorem test_exchange_counters : exchangeCounters .incrPerMessage 4 = some (5, 6) ∧
    exchangeCounters .samePerPair 4 = some (5, 5) ∧ exchangeCounters .samePerPair (2 ^ 64 - 1) = none := by decide

/-! ### Witnesses: for every obligation with hypotheses, a concrete state and operands that meet them, clause by clause, at
the boundary values of each range. -/

/-- An idle machine with the SRC keys, IN_LEN = n. -/
def lenState (n : BitVec 9) : State := { session 1 [] with inLen := n }

/-- The same, locked. -/
def lockedState : State := { lenState 255 with status := { Status.reset with locked := true } }

/-- A machine with the PAD command in flight and the engine due. -/
def busyState : State := State.reset.withFetchWord 32 0x1

/-- The same with a latency of one host access still to pass, and this input to come. -/
def waitingState (i : Input) : State := { busyState with countdown := 1, pending := [i] }

theorem length_session (v : BitVec 64) (ins : List Byte) (h : ins.length ≤ 256) : (session v ins).inLen.toNat = ins.length := by
  simp [session, keyedState]; omega

/-- The input of a session is the string it was given. -/
theorem inBytes_session (v : BitVec 64) (ins : List Byte) (h : ins.length ≤ 256) : (session v ins).inBytes = ins := by
  have hl := length_session v ins h
  apply List.ext_getElem
  · simp [hl]
  · intro i h1 h2
    simp only [State.inBytes, Memory.readBytes, List.getElem_map, List.getElem_range]
    show Memory.read (Memory.writeBytes _ 0x100 ins) (0x100 + i) = _
    rw [Memory.read_writeBytes, if_pos (by omega)]
    simp [h2]

theorem ready_session (v : BitVec 64) (ins : List Byte) (h : ins.length ≤ 256) : ReadyWithInput (session v ins) :=
  ⟨rfl, by rw [length_session v ins h]; exact h, .inr (.inr rfl), rfl⟩

/-- The keys of a session do not depend on its counter or its input. -/
theorem kenc_session (v : BitVec 64) (ins : List Byte) (v' : BitVec 64) (ins' : List Byte) :
    (session v ins).kenc = (session v' ins').kenc := by
  refine Memory.readBytes_congr fun i hi => ?_
  have hi : i < 32 := hi
  simp only [session, keyedState, Config.kencBase, Memory.read_writeBytes]
  rw [if_neg (by omega), if_neg (c := 0x100 ≤ 0x40 + i ∧ _) (by omega)]

theorem kmac_session (v : BitVec 64) (ins : List Byte) (v' : BitVec 64) (ins' : List Byte) :
    (session v ins).kmac = (session v' ins').kmac := by
  refine Memory.readBytes_congr fun i hi => ?_
  have hi : i < 32 := hi
  simp only [session, keyedState, Config.kmacBase, Memory.read_writeBytes]
  rw [if_neg (by omega), if_neg (c := 0x100 ≤ 0x60 + i ∧ _) (by omega)]

theorem ssc_session (v : BitVec 64) (ins ins' : List Byte) : (session v ins).ssc = (session v ins').ssc := rfl

theorem busyState_inv : Inv busyState := by
  constructor <;> simp [busyState, State.withFetchWord, State.issue, State.reset, Status.reset, Status.issued, Memory.clear,
    Memory.wf, OutputsClear, Result.cleared]

/-- The shared clauses of the keyed commands that read IN (SharedErrors): locked; not locked and 257 bytes; not locked, 256
bytes and keys of an unsupported length, or of two lengths; and ready, at 256 bytes, for each key length. -/
theorem witness_sharedErrors :
    lockedState.status.locked = true ∧
      ((lenState 257).status.locked = false ∧ 256 < (lenState 257).inLen.toNat) ∧
      (¬KeysAccepted { lenState 256 with kcfg := { kencLen := 20, kmacLen := 20 } } ∧
        ¬KeysAccepted { lenState 256 with kcfg := { kencLen := 32, kmacLen := 16 } }) ∧
      (ReadyWithInput (lenState 256) ∧ ReadyWithInput { lenState 0 with kcfg := { kencLen := 16, kmacLen := 16 } } ∧
        ReadyWithInput { lenState 1 with kcfg := { kencLen := 24, kmacLen := 24 } }) := by
  unfold ReadyWithInput KeysAccepted; decide

/-- RunsAs: the engine is due with a command's word in CMD, and with the word that differs from it in RSVD alone. -/
theorem witness_runsAs : ∀ i : Fin 10,
    let s := State.reset.withFetchWord 32 (i.val + 1)
    let u := State.reset.withFetchWord 32 (256 * 0xFFFFFF + i.val + 1)
    s.engineDue = true ∧ s.cmd = BitVec.ofNat 32 (i.val + 1) ∧ u.engineDue = true ∧ u.cmd.toNat % 256 = i.val + 1 ∧
      u.cmd.toNat / 256 ≠ 0 := by decide +kernel

theorem witness_IllegalWords : IllegalWord 0x00000000 ∧ IllegalWord 0x0000000B ∧ IllegalWord 0x000000FF ∧
    IllegalWord 0x00000101 ∧ IllegalWord 0xFFFFFF0A ∧ State.reset.status.busy = false ∧
    (State.reset.withFetchWord 32 0).engineDue = true ∧ (State.reset.withFetchWord 32 0).cmd = 0x00000000 := by
  unfold IllegalWord; decide +kernel

theorem witness_StepRunsDecodedCommand :
    (busyState.status.busy = true ∧ busyState.countdown = 0 ∧ decode busyState.cmd = .ok .pad) ∧
      ({ busyState with countdown := 1 }.status.busy = true ∧ { busyState with countdown := 1 }.pending = []) ∧
      (State.reset.status.busy = false ∧ State.reset.pending = []) ∧
      ({ State.reset with pending := [.reset] }.status.busy = false) ∧
      ((waitingState (rd .id)).status.busy = true ∧ 0 < (waitingState (rd .id)).countdown ∧
        (waitingState (rd .id)).pending = [rd .id]) := by decide +kernel

theorem witness_StepKeepsTheInvariant : Inv busyState ∧ ∃ t, step busyState = .next t :=
  ⟨busyState_inv, _, exec_eq .pad busyState⟩

theorem witness_RejectedAccesses : BusRejects .byte 0x000 ∧ BusRejects .half 0x000 ∧ BusRejects .word 0x001 ∧
    BusRejects .word 0x03C ∧ BusRejects .word 0x080 ∧ BusRejects .word 0x0FC ∧ BusRejects .word 0x300 ∧
    BusRejects .word 0xFFC ∧ ¬BusRejects .word 0x000 ∧ ¬BusRejects .word 0x038 ∧ ¬BusRejects .word 0x040 ∧
    ¬BusRejects .word 0x07C ∧ ¬BusRejects .word 0x100 ∧ ¬BusRejects .word 0x2FC ∧ 0x2FC = offsetOf (.outBuf 63) := by
  unfold BusRejects
  refine ⟨?_, ?_, ?_, ?_, ?_, ?_, ?_, ?_, ?_, ?_, ?_, ?_, ?_, ?_, ?_⟩ <;> decide

theorem witness_WritesWhileBusy : BusRejects .word 0x03C ∧ State.reset.status.busy = false ∧
    busyState.status.busy = true ∧ ¬BusRejects .word 0x000 ∧ (0x000 : BitVec 12) ≠ 0x004 ∧ ¬BusRejects .word 0x00C ∧
    (0x2 : Word).getLsbD 0 = false ∧ (0x3 : Word).getLsbD 0 = true := by
  unfold BusRejects; decide +kernel

theorem witness_idle_and_busy : State.reset.status.busy = false ∧ busyState.status.busy = true := by decide +kernel

theorem witness_IdIsConstant : State.reset.status.busy = false ∧ busyState.status.busy = true := witness_idle_and_busy

theorem witness_WrittenRegistersReadBack : State.reset.status.busy = false ∧ (0xFFFFFFFE : Word).getLsbD 0 = false ∧
    Reg.tag1 ≠ .tag0 := by decide

theorem witness_BufferWords : State.reset.status.busy = false ∧ (0x100 + 4 * 63 ≤ 0x1FF ∧ 0x1FF < 0x100 + 4 * 63 + 4) ∧
    Reg.inBuf 62 ≠ .inBuf 63 ∧ Reg.outBuf 0 ≠ .inBuf 63 := by decide

theorem witness_KeysCannotBeRead : ∀ a, ¬(0x040 ≤ a ∧ a < 0x080) →
    Memory.read [(0x040, 0x12), (0x07F, 0x34)] a = State.reset.mem.read a := by
  intro a h
  simp only [Memory.read, State.reset]
  rw [if_neg (by omega), if_neg (by omega)]

theorem witness_OutputsReadZero : Inv busyState ∧ busyState.status.busy = true := ⟨busyState_inv, by decide +kernel⟩

theorem witness_CmdWriteIssues : State.reset.status.busy = false ∧ busyState.status.busy = true := witness_idle_and_busy

/-- A command that ends with an error. -/
theorem witness_ErrorsLeaveNoOutput : ∃ t, (State.reset.withFetchWord 32 0).engineDue = true ∧
    step (State.reset.withFetchWord 32 0) = .next t ∧ t.status.err ≠ none ∧ Inv (State.reset.withFetchWord 32 0) := by
  refine ⟨_, by decide +kernel, rfl, by decide +kernel, ?_⟩
  constructor <;> simp [State.withFetchWord, State.issue, State.reset, Status.reset, Status.issued, Memory.clear,
    Memory.wf, OutputsClear, Result.cleared]

theorem witness_CommonPrelude :
    ((State.reset.withFetchWord 32 0).engineDue = true ∧ IllegalWord (State.reset.withFetchWord 32 0).cmd) ∧
      lockedState.status.locked = true ∧
      ((lenState 257).status.locked = false ∧ ReadsInput .unwrap (lenState 257) ∧ 256 < (lenState 257).inLen.toNat) ∧
      (ReadsInput .pad { lockedState with inLen := 511 }) ∧
      ({ lenState 511 with opt := Opt.ofWord 0x2 }.status.locked = false ∧
        ¬ReadsInput .prepare { lenState 511 with opt := Opt.ofWord 0x2 }) ∧
      (State.reset.status.locked = false ∧ ¬KeysAccepted State.reset) := by
  unfold IllegalWord ReadsInput KeysAccepted; decide +kernel

theorem witness_InFlightCommandIsFrozen : busyState.status.busy = true ∧ isReset (wr .inLen 5) = false ∧
    isReset .reset = true ∧ isReset (wr .ctrl 0x3) = true ∧ isReset (wr .ctrl 0x2) = false := by decide +kernel

theorem witness_Latency : (waitingState (wr .inLen 5)).status.busy = true ∧
    ∀ i ∈ (waitingState (wr .inLen 5)).pending, isReset i = false := by decide +kernel

theorem witness_UnpadLimit : (15 : Nat) ≤ 15 ∧ unpad (0x80 :: zeros 15) = some [] ∧ unpad (0x80 :: zeros 16) = none := by decide

theorem witness_PadCommand : 256 ≤ (lenState 256).inLen.toNat ∧ (lenState 255).inLen.toNat ≤ 255 := by decide

theorem witness_AesDecryption : (zeros 16).length = 16 ∧ (zeros 24).length = 24 ∧ (zeros 32).length = 32 := by decide

theorem witness_Cbc : (zeros 16).length = 16 ∧ (zeros 48).length % 16 = 0 ∧ 2 < (zeros 48).length / 16 ∧
    ([] : List Byte).length % 16 = 0 := by decide

theorem witness_EncBlock : ReadyWithInput (lenState 16) ∧ (lenState 16).inLen.toNat = 16 ∧ ReadyWithInput (lenState 15) ∧
    (lenState 15).inLen.toNat ≠ 16 := by
  unfold ReadyWithInput KeysAccepted; decide

theorem witness_DecBlock : ∃ s t u : State, ReadyWithInput s ∧ s.inLen.toNat = 16 ∧ exec .encBlock s = .next t ∧
    ReadyWithInput u ∧ u.kenc = s.kenc ∧ u.inBytes = t.mem.readBytes 0x200 16 := by
  refine ⟨session 0 (zeros 16), _, session 0 (Memory.readBytes _ 0x200 16), ready_session _ _ (by decide), by decide +kernel,
    exec_eq _ _, ready_session _ _ (by simp), ?_, inBytes_session _ _ (by simp)⟩
  exact kenc_session _ _ _ _

theorem witness_DeriveIv : lockedState.status.locked = true ∧ (State.reset.status.locked = false ∧ ¬KeysAccepted State.reset) ∧
    ((lenState 511).status.locked = false ∧ KeysAccepted (lenState 511)) := by
  unfold KeysAccepted; decide

theorem witness_EncData : ReadyWithInput (lenState 256) ∧ (lenState 256).inLen.toNat = 256 ∧ ReadyWithInput (lenState 255) ∧
    (lenState 255).inLen.toNat ≤ 255 := by
  unfold ReadyWithInput KeysAccepted; decide

/-- DEC_DATA: no bytes, 17 bytes; and the ciphertext of GV2 at its own counter and at the next. -/
theorem witness_DecData : (ReadyWithInput (lenState 0) ∧ ReadyWithInput (lenState 17)) ∧
    (∃ s d, ReadyWithInput s ∧ 0 < s.inLen.toNat ∧ s.inLen.toNat % 16 = 0 ∧
      unpad (cbcD s.kenc (aesE s.kenc (be 16 s.ssc.toNat)) s.inBytes) = some d) ∧
    ∃ s, ReadyWithInput s ∧ 0 < s.inLen.toNat ∧ s.inLen.toNat % 16 = 0 ∧
      unpad (cbcD s.kenc (aesE s.kenc (be 16 s.ssc.toNat)) s.inBytes) = none := by
  refine ⟨by unfold ReadyWithInput KeysAccepted; decide,
    ⟨session 1 (be 16 0x9068db9e71676629b3faa7b12632c730), [0x50, 0x00], ready_session _ _ (by decide), by decide +kernel,
      by decide +kernel, by decide +kernel⟩,
    ⟨session 2 (be 16 0x9068db9e71676629b3faa7b12632c730), ready_session _ _ (by decide), by decide +kernel,
      by decide +kernel, by decide +kernel⟩⟩

theorem witness_DecDataInvertsEncData : ∃ s t u : State, ReadyWithInput s ∧ s.inLen.toNat ≤ 255 ∧ exec .encData s = .next t ∧
    ReadyWithInput u ∧ u.kenc = s.kenc ∧ u.ssc = s.ssc ∧ u.inBytes = t.mem.readBytes 0x200 t.outLen.toNat := by
  refine ⟨session 1 [0x50, 0x00], _, session 1 (be 16 0x9068db9e71676629b3faa7b12632c730), ready_session _ _ (by decide),
    by decide +kernel, exec_eq _ _, ready_session _ _ (by decide), by decide +kernel, by decide +kernel, by decide +kernel⟩

theorem witness_ComputeMac : ReadyWithInput (lenState 256) ∧ ReadyWithInput (lenState 0) := by
  unfold ReadyWithInput KeysAccepted; decide

theorem witness_VerifyMac : ReadyWithInput (lenState 256) ∧ ReadyWithInput (lenState 0) := witness_ComputeMac

theorem witness_ComputedMacVerifies : ∃ s t u : State, ReadyWithInput s ∧ exec .computeMac s = .next t ∧ ReadyWithInput u ∧
    u.kmac = s.kmac ∧ u.inBytes = s.inBytes ∧ u.tag = t.mem.readBytes 0x200 8 := by
  refine ⟨session 0 [0x00], _, { session 0 [0x00] with tag0 := 0x877d5fb7, tag1 := 0x5f9a30ad }, ready_session _ _ (by decide),
    exec_eq _ _, by unfold ReadyWithInput KeysAccepted; decide +kernel, rfl, rfl, by decide +kernel⟩

theorem witness_ProtectedHeader : (lanes 0x0C01A400).length = 4 ∧ (2 : Nat) < 8 ∧ (7 : Nat) < 8 := by decide

/-- PREPARE: locked; 257 bytes of data; keys refused; 112 and 256 bytes of data; 111 bytes of data; and no data at all with
any IN_LEN. -/
theorem witness_Prepare :
    let d (n : BitVec 9) : State := { lenState n with opt := Opt.ofWord 0x1 }
    lockedState.status.locked = true ∧
      ((d 257).status.locked = false ∧ (d 257).opt.dataPresent = true ∧ 256 < (d 257).inLen.toNat) ∧
      (State.reset.status.locked = false ∧ ¬KeysAccepted State.reset ∧
        ¬(State.reset.opt.dataPresent = true ∧ 256 < State.reset.inLen.toNat)) ∧
      ((d 112).status.locked = false ∧ KeysAccepted (d 112) ∧ 112 ≤ (d 112).inLen.toNat ∧ (d 256).inLen.toNat ≤ 256) ∧
      ((d 111).status.locked = false ∧ KeysAccepted (d 111) ∧ (d 111).inLen.toNat ≤ 111) ∧
      (KeysAccepted (lenState 511) ∧ ((lenState 511).opt.dataPresent = true → (lenState 511).inLen.toNat ≤ 111)) := by
  unfold KeysAccepted; decide

/-- A PREPARE that succeeds, with no data and no le. -/
theorem witness_PrepareOutputLength : ∃ t, exec .prepare (lenState 0) = .next t ∧ t.status.err = none :=
  ⟨_, exec_eq _ _, by decide +kernel⟩

/-- Two states that agree on PREPARE's inputs and on nothing else. -/
theorem witness_PrepareIsDetermined : ∃ s u t v : State, s ≠ u ∧ s.status.locked = false ∧ u.status.locked = false ∧
    KeysAccepted s ∧ KeysAccepted u ∧ u.kenc = s.kenc ∧ u.kmac = s.kmac ∧ u.ssc = s.ssc ∧ u.hdr = s.hdr ∧ u.data = s.data ∧
    u.le = s.le ∧ exec .prepare s = .next t ∧ exec .prepare u = .next v := by
  refine ⟨lenState 0, { lenState 77 with tag0 := 5 }, _, _, by decide +kernel, rfl, rfl, ⟨.inr (.inr rfl), rfl⟩,
    ⟨.inr (.inr rfl), rfl⟩, rfl, rfl, rfl, rfl, rfl, rfl, exec_eq _ _, exec_eq _ _⟩

/-- A response and a string that is none. -/
theorem witness_Parser : IsResponse ([] ++ [0x99, 0x02, 0x90, 0x00] ++ ([0x8E, 0x08] ++ zeros 8)) [] [0x99, 0x02, 0x90, 0x00] (zeros 8) ∧
    ¬∃ do87 do99 tag, IsResponse [] do87 do99 tag := by
  refine ⟨⟨rfl, by decide, ⟨0x90, 0x00, rfl⟩, .inl rfl⟩, ?_⟩
  rintro ⟨a, b, c, h, -, -⟩
  have := congrArg List.length h
  simp at this

/-! The rest of the witnesses: the APDU commands, the lock, the resets and the whole-machine rules. -/

/-- The response of status 9000 around a DO87, with its right MAC at this counter. -/
def response (v : BitVec 64) (do87 : List Byte) : List Byte :=
  do87 ++ [0x99, 0x02, 0x90, 0x00] ++
    ([0x8E, 0x08] ++ mac (session v []).kmac (be 16 v.toNat ++ do87 ++ [0x99, 0x02, 0x90, 0x00]))

theorem ssc_session_eq (v : BitVec 64) (ins : List Byte) : (session v ins).ssc = v := by
  apply BitVec.eq_of_getLsbD_eq
  intro i hi
  simp only [State.ssc, session, keyedState, BitVec.getLsbD_append, BitVec.getLsbD_extractLsb']
  by_cases h : i < 32
  · simp [h]
  · simp [h, show i - 32 < 32 by omega, show 32 + (i - 32) = i by omega]

/-- A session that has received such a response meets UNWRAP's hypotheses up to the MAC. -/
theorem response_hypotheses (v : BitVec 64) (do87 : List Byte) (h : do87.length ≤ 129)
    (hd : do87 = [] ∨ ∃ ct : List Byte, ct.length ≤ 126 ∧ do87 = [0x87, lenByte (1 + ct.length), 0x01] ++ ct) :
    let s := session v (response v do87)
    ∃ tag, ReadyWithInput s ∧ IsResponse s.inBytes do87 [0x99, 0x02, 0x90, 0x00] tag ∧
      mac s.kmac (be 16 s.ssc.toNat ++ do87 ++ [0x99, 0x02, 0x90, 0x00]) = tag := by
  have hl : (response v do87).length ≤ 256 := by
    simp only [response, List.length_append, List.length_cons, List.length_nil, length_mac_eq]; omega
  refine ⟨_, ready_session _ _ hl, ⟨?_, length_mac_eq _ _, ⟨0x90, 0x00, rfl⟩, hd⟩, rfl⟩
  rw [inBytes_session _ _ hl, ssc_session_eq, kmac_session v _ v []]
  rfl

/-- UNWRAP: a string that is no response; a response without a DO87 whose MAC is right; and one whose MAC is that of another
counter (L2.8, the response of SSC 2 at SSC 3). -/
theorem witness_Unwrap : (ReadyWithInput (lenState 0) ∧ ¬∃ do87 do99 tag, IsResponse (lenState 0).inBytes do87 do99 tag) ∧
    (∃ (s : State) (tag : List Byte), ReadyWithInput s ∧ IsResponse s.inBytes [] [0x99, 0x02, 0x90, 0x00] tag ∧
      mac s.kmac (be 16 s.ssc.toNat ++ [] ++ [0x99, 0x02, 0x90, 0x00]) = tag) ∧
    ∃ (s : State) (tag : List Byte), ReadyWithInput s ∧ IsResponse s.inBytes [] [0x99, 0x02, 0x90, 0x00] tag ∧
      mac s.kmac (be 16 s.ssc.toNat ++ [] ++ [0x99, 0x02, 0x90, 0x00]) ≠ tag := by
  refine ⟨⟨witness_ComputeMac.2, witness_Parser.2⟩, ⟨_, response_hypotheses 2 [] (by simp) (.inl rfl)⟩,
    ⟨session 3 (be 14 0x990290008e08c05389cdf720febe), be 8 0xc05389cdf720febe, ready_session _ _ (by decide),
      ⟨by decide +kernel, by decide, ⟨0x90, 0x00, rfl⟩, .inl rfl⟩, by decide +kernel⟩⟩

/-- UNWRAP with a right MAC and a DO87: of 17 bytes; of a block that decrypts (L2.8, SSC 6); and of one whose padding is bad
(L2.8, SSC 11). -/
theorem witness_Unwrap_do87 :
    (∃ (s : State) (ct tag : List Byte), ReadyWithInput s ∧
      IsResponse s.inBytes ([0x87, lenByte (1 + ct.length), 0x01] ++ ct) [0x99, 0x02, 0x90, 0x00] tag ∧
      mac s.kmac (be 16 s.ssc.toNat ++ ([0x87, lenByte (1 + ct.length), 0x01] ++ ct) ++ [0x99, 0x02, 0x90, 0x00]) = tag ∧
      ct.length % 16 ≠ 0) ∧
    (∃ (s : State) (ct tag d : List Byte), ReadyWithInput s ∧
      IsResponse s.inBytes ([0x87, lenByte (1 + ct.length), 0x01] ++ ct) [0x99, 0x02, 0x90, 0x00] tag ∧
      mac s.kmac (be 16 s.ssc.toNat ++ ([0x87, lenByte (1 + ct.length), 0x01] ++ ct) ++ [0x99, 0x02, 0x90, 0x00]) = tag ∧
      0 < ct.length ∧ ct.length % 16 = 0 ∧ unpad (cbcD s.kenc (aesE s.kenc (be 16 s.ssc.toNat)) ct) = some d) ∧
    ∃ (s : State) (ct tag : List Byte), ReadyWithInput s ∧
      IsResponse s.inBytes ([0x87, lenByte (1 + ct.length), 0x01] ++ ct) [0x99, 0x02, 0x90, 0x00] tag ∧
      mac s.kmac (be 16 s.ssc.toNat ++ ([0x87, lenByte (1 + ct.length), 0x01] ++ ct) ++ [0x99, 0x02, 0x90, 0x00]) = tag ∧
      0 < ct.length ∧ ct.length % 16 = 0 ∧ unpad (cbcD s.kenc (aesE s.kenc (be 16 s.ssc.toNat)) ct) = none := by
  refine ⟨?_, ?_, ?_⟩
  · obtain ⟨tag, h1, h2, h3⟩ := response_hypotheses 10 ([0x87, lenByte (1 + (zeros 17).length), 0x01] ++ zeros 17) (by decide)
      (.inr ⟨_, by decide, rfl⟩)
    exact ⟨_, _, tag, h1, h2, h3, by decide⟩
  · obtain ⟨tag, h1, h2, h3⟩ := response_hypotheses 6 ([0x87, lenByte (1 + (be 16 0x4eda48c1fc12cf1ab1142f4adedd6eae).length),
      0x01] ++ be 16 0x4eda48c1fc12cf1ab1142f4adedd6eae) (by decide) (.inr ⟨_, by decide, rfl⟩)
    refine ⟨_, _, tag, [1, 2, 3, 4, 5, 6], h1, h2, h3, by decide, by decide, ?_⟩
    rw [ssc_session_eq, kenc_session 6 _ 6 []]
    decide +kernel
  · obtain ⟨tag, h1, h2, h3⟩ := response_hypotheses 11 ([0x87, lenByte (1 + (be 16 0xb36b0a6e0d049eec57633d0417eea2a9).length),
      0x01] ++ be 16 0xb36b0a6e0d049eec57633d0417eea2a9) (by decide) (.inr ⟨_, by decide, rfl⟩)
    refine ⟨_, _, tag, h1, h2, h3, by decide, by decide, ?_⟩
    rw [ssc_session_eq, kenc_session 11 _ 11 []]
    decide +kernel

theorem length_cardResponse_le (s : State) (d : List Byte) (a b : Byte) (h : d.length ≤ 111) : (cardResponse s d a b).length ≤ 256 := by
  have h1 := length_encData s.kenc s.ssc d
  have h2 := length_mac s.kmac (be 16 s.ssc.toNat ++ cardDo87 s d ++ [0x99, 0x02, a, b])
  simp only [cardResponse, cardDo87, List.length_append, List.length_cons, List.length_nil] at h2 ⊢
  omega

/-- A response built around the longest plaintext, 111 bytes. -/
theorem witness_UnwrapOpensCardResponses : ∃ (s : State) (d : List Byte), ReadyWithInput s ∧ d.length ≤ 111 ∧ d.length = 111 ∧
    s.inBytes = cardResponse s d 0x90 0x00 := by
  have h := length_cardResponse_le (session 6 []) (zeros 111) 0x90 0x00 (by simp)
  refine ⟨session 6 (cardResponse (session 6 []) (zeros 111) 0x90 0x00), zeros 111, ready_session _ _ h, by simp, by simp, ?_⟩
  rw [inBytes_session _ _ h]
  have hk := kenc_session 6 [] 6 (cardResponse (session 6 []) (zeros 111) 0x90 0x00)
  have hm := kmac_session 6 [] 6 (cardResponse (session 6 []) (zeros 111) 0x90 0x00)
  have hs : (session 6 (cardResponse (session 6 []) (zeros 111) 0x90 0x00)).ssc = (session 6 []).ssc :=
    ssc_session _ _ _
  unfold cardResponse cardDo87 at *
  simp only [← hk, ← hm, hs]

/-- A response with a bad MAC locks; a locked machine with a reset to come unlocks. -/
theorem witness_OnlyResetClearsLocked :
    (∃ t, ((session 2 (be 15 0x990290008e08c05389cdf720febe00)).withFetchWord 32 0x8).engineDue = true ∧
      step ((session 2 (be 15 0x990290008e08c05389cdf720febe00)).withFetchWord 32 0x8) = .next t ∧ t.status.err = some .auth) ∧
      ∃ t, step { lockedState with pending := [.reset] } = .next t ∧ lockedState.status.locked = true ∧
        t.status.locked = false :=
  ⟨⟨_, by decide +kernel, exec_eq .unwrap _, by decide +kernel⟩, ⟨_, rfl, rfl, rfl⟩⟩

theorem witness_Locked : lockedState.status.locked = true ∧ lockedState.inLen.toNat ≤ 255 ∧ Instr.prepare ≠ .pad ∧
    lockedState.status.busy = false := by decide

theorem witness_Interrupt : (∃ t, exec .pad State.reset = .next t) ∧ (0x2 : Word).getLsbD 1 = true ∧
    State.reset.status.busy = false ∧ BusRejects .word 0x03C :=
  ⟨⟨_, exec_eq _ _⟩, by decide, rfl, .inr (.inr (.inl rfl))⟩

theorem witness_SoftReset : (0x3 : Word).getLsbD 0 = true ∧ (0x2 : Word).getLsbD 0 = false := by decide

theorem witness_AfterReset : Instr.encData ≠ .pad ∧ State.reset.kcfg = { kencLen := 0, kmacLen := 0 } ∧
    State.reset.status.locked = false ∧ { State.reset with inLen := 256 }.inLen.toNat ≤ 256 := by decide

theorem witness_Boot : State.reset.status.busy = false ∧ srcKenc.length = 32 ∧ srcKmac.length = 32 ∧
    (zeros 16).length = 16 ∧ (zeros 24).length = 24 := by decide

theorem witness_Instances : (Platform.mk [State.reset, busyState]).instances[1]? = some busyState ∧ (0 : Nat) ≠ 1 := by
  decide +kernel

/-- A write to SSC_HI changes the counter; so does a reset. -/
theorem witness_Counter : (∃ t, step { State.reset with pending := [wr .sscHi 1] } = .next t ∧
      t.ssc ≠ State.ssc { State.reset with pending := [wr .sscHi 1] }) ∧
    ∃ t, step { lenState 0 with pending := [.reset] } = .next t ∧ t.ssc ≠ State.ssc { lenState 0 with pending := [.reset] } :=
  ⟨⟨_, rfl, by decide +kernel⟩, ⟨_, rfl, by decide +kernel⟩⟩

/-- A write to the last key word changes the last key byte. -/
theorem witness_Keys : ∃ t, step { State.reset with pending := [wr (.kmac 7) 0xFF000000] } = .next t ∧
    0x040 ≤ 0x07F ∧ 0x07F < 0x080 ∧ t.mem.read 0x07F ≠ State.reset.mem.read 0x07F :=
  ⟨_, rfl, by decide, by decide, by decide +kernel⟩

/-- An issue changes the last byte of OUT_BUF, OUT_LEN, SW and RESULT. -/
theorem witness_Outputs :
    let s : State := { State.reset with
      outLen := 256, sw := 0x9000, result := { matched := false, do87Seen := true }, mem := [(0x2FF, 0x80)], pending := [wr .cmd 1] }
    ∃ t, step s = .next t ∧ s.engineDue = false ∧ t.outLen ≠ s.outLen ∧ t.sw ≠ s.sw ∧ t.result ≠ s.result ∧
      t.mem.read 0x2FF ≠ s.mem.read 0x2FF :=
  ⟨_, rfl, by decide +kernel, by decide +kernel, by decide +kernel, by decide +kernel, by decide +kernel⟩

theorem witness_CanonicalMemories : Memory.wf [(0x100, 0x01), (0x1FF, 0x02)] ∧
    Memory.write (Memory.write [] 0x1FF 0x02) 0x100 0x01 = [(0x100, 0x01), (0x1FF, 0x02)] := by decide

end Sys2Proof.Machine.Tests
end

/-! Latency (O22). While a command is in flight, the host's accesses change only what the command neither reads nor leaves
behind as its observable result. `State.inFlight` is the state with those parts blanked out: accesses keep it, and the
completion's observable result is a function of it. -/

namespace Sys2Proof.Machine

/-- The state cut down to what the completion of its command depends on: CTRL, every STATUS bit but LOCKED, and the model's own
fields are blank. -/
def State.inFlight (s : State) : State :=
  { s with
    ctrl := State.reset.ctrl
    status := { Status.reset with locked := s.status.locked }
    pending := []
    responses := []
    issues := 0
    countdown := 0 }

/-- R275: what the engine computes for the word in CMD. -/
def engineResult (s : State) : Except ErrCode Outputs :=
  match decode s.cmd with
  | .ok i => resultOf i s
  | .error _ => .error .illegalCmd

theorem engineStep_eq_engineResult (s : State) : engineStep s = .next (s.complete (engineResult s)) :=
  engineStep_eq s

theorem resultOf_inFlight (i : Instr) (s : State) : resultOf i s.inFlight = resultOf i s := by
  cases i <;> rfl

@[simp] theorem State.inFlight_cmd (s : State) : s.inFlight.cmd = s.cmd := rfl

theorem engineResult_inFlight (s : State) : engineResult s.inFlight = engineResult s := by
  simp only [engineResult, State.inFlight_cmd, resultOf_inFlight]

theorem observable_complete_inFlight (s : State) (r : Except ErrCode Outputs) :
    (s.inFlight.complete r).observable = (s.complete r).observable := by
  cases r with
  | error e => rfl
  | ok o =>
    obtain ⟨bytes, sw, matched, seen⟩ := o
    cases bytes <;> rfl

/-- R275: the observable result of a completion depends on the state's in-flight part alone. -/
theorem observable_completion_congr {s t : State} (h : s.inFlight = t.inFlight) :
    (s.complete (engineResult s)).observable = (t.complete (engineResult t)).observable := by
  rw [← observable_complete_inFlight s, ← observable_complete_inFlight t, ← engineResult_inFlight s,
    ← engineResult_inFlight t, h]

theorem complete_busy (s : State) (r : Except ErrCode Outputs) : (s.complete r).status.busy = false := by
  cases r <;> simp

theorem complete_done (s : State) (r : Except ErrCode Outputs) : (s.complete r).status.done = true := by
  cases r <;> simp

/-- R86, R93: an access while a command is in flight leaves it in flight, unchanged, and the queue as it was. -/
theorem perform_keeps_inFlight {s : State} (hb : s.status.busy = true) {i : Input} (hi : isReset i = false) :
    (s.perform i).status.busy = true ∧ (s.perform i).pending = s.pending ∧ (s.perform i).inFlight = s.inFlight := by
  obtain ⟨c, st, rs, hbusy, hlocked, -, hp⟩ := busy_perform hb i hi
  rw [hp]
  exact ⟨hbusy, rfl, by simp only [State.inFlight, hlocked]⟩

theorem step_of_engineDue {s : State} (h : s.engineDue = true) : step s = .next (s.complete (engineResult s)) := by
  rw [← engineStep_eq_engineResult, step, if_pos h]

theorem step_of_pending {s : State} {i : Input} {rest : List Input} (hd : s.engineDue = false)
    (hp : s.pending = i :: rest) : step s = .next ((s.takeInput rest).perform i) := by
  simp [step, hd, hp]

theorem engineDue_of_pending_nil {s : State} (hb : s.status.busy = true) (hp : s.pending = []) :
    s.engineDue = true := by
  simp [State.engineDue, hb, hp]

theorem run_succ_of_step {s t : State} (h : step s = .next t) (k : Nat) :
    Host.Core.run Sys2Proof.core (k + 1) s = Host.Core.run Sys2Proof.core k t := by
  have hs : Sys2Proof.core.step s = .next t := h
  simp only [Host.Core.run, hs]

theorem run_one_of_engineDue {s : State} (h : s.engineDue = true) :
    Host.Core.run Sys2Proof.core 1 s = .next (s.complete (engineResult s)) :=
  run_succ_of_step (step_of_engineDue h) 0

/-- R275, R330: a run no longer than the queue and one step more ends in the completion of a state that still has the same
command in flight. -/
theorem run_reaches_completion (inputs : List Input) {s : State} (hb : s.status.busy = true) (hp : s.pending = inputs)
    (hr : ∀ i ∈ inputs, isReset i = false) :
    ∃ (k : Nat) (v : State), k ≤ inputs.length + 1 ∧ v.inFlight = s.inFlight ∧
      Host.Core.run Sys2Proof.core k s = .next (v.complete (engineResult v)) := by
  induction inputs generalizing s with
  | nil => exact ⟨1, s, le_rfl, rfl, run_one_of_engineDue (engineDue_of_pending_nil hb hp)⟩
  | cons i rest ih =>
    cases hd : s.engineDue with
    | true => exact ⟨1, s, by simp, rfl, run_one_of_engineDue hd⟩
    | false =>
      obtain ⟨hi, hrest⟩ := List.forall_mem_cons.mp hr
      obtain ⟨hb', hp', hsame⟩ := perform_keeps_inFlight (s := s.takeInput rest) hb hi
      obtain ⟨k, v, hk, hv, hrun⟩ := ih hb' hp' hrest
      refine ⟨k + 1, v, Nat.succ_le_succ hk, hv.trans hsame, ?_⟩
      rw [run_succ_of_step (step_of_pending hd hp), hrun]

/-- Settles O22: every access before the completion keeps the in-flight part, on which the observable result depends. -/
theorem latencyDoesNotChangeTheResult : Obligations.LatencyDoesNotChangeTheResult := by
  intro s hb hr
  obtain ⟨k, v, hk, hv, hrun⟩ := run_reaches_completion s.pending hb rfl hr
  exact ⟨k, v.complete (engineResult v), s.complete (engineResult s), hk, hrun, engineStep_eq_engineResult s,
    complete_busy v _, complete_done v _, observable_completion_congr hv⟩

end Sys2Proof.Machine

/-! The window's words. Register offsets are disjoint words, and the host's writes to the buffers fall on the keys and IN_BUF
(10_state.md R46 to R48, 20_memory.md R82). -/

namespace Sys2Proof.Machine

/-- The input buffers: the buffer words the host can write (R46 to R48). -/
def HostBuffer (r : Reg) : Prop := (∃ j, r = .inBuf j) ∨ (∃ j, r = .kenc j) ∨ ∃ j, r = .kmac j

theorem HostBuffer.ne_ctrl {r : Reg} (h : HostBuffer r) : r ≠ .ctrl := by
  rintro rfl; obtain ⟨_, h⟩ | ⟨_, h⟩ | ⟨_, h⟩ := h <;> cases h

theorem HostBuffer.ne_status {r : Reg} (h : HostBuffer r) : r ≠ .status := by
  rintro rfl; obtain ⟨_, h⟩ | ⟨_, h⟩ | ⟨_, h⟩ := h <;> cases h

theorem toNat_offsetOf_kenc (j : Fin 8) : (offsetOf (.kenc j)).toNat = Config.kencBase + 4 * j.val := by
  simp only [offsetOf, BitVec.toNat_ofNat, Config.kencBase]; omega

theorem toNat_offsetOf_kmac (j : Fin 8) : (offsetOf (.kmac j)).toNat = Config.kmacBase + 4 * j.val := by
  simp only [offsetOf, BitVec.toNat_ofNat, Config.kmacBase]; omega

theorem toNat_offsetOf_inBuf (j : Fin 64) : (offsetOf (.inBuf j)).toNat = Config.inBase + 4 * j.val := by
  simp only [offsetOf, BitVec.toNat_ofNat, Config.inBase]; omega

theorem toNat_offsetOf_outBuf (j : Fin 64) : (offsetOf (.outBuf j)).toNat = Config.outBase + 4 * j.val := by
  simp only [offsetOf, BitVec.toNat_ofNat, Config.outBase]; omega

/-- R82: a write to an input buffer word writes the word's lanes at the register's offset and nothing else. -/
theorem applyWrite_hostBuffer {r : Reg} (h : HostBuffer r) (s : State) (v : Word) :
    s.applyWrite r v = { s with mem := s.mem.writeWord (offsetOf r).toNat v } := by
  obtain ⟨j, rfl⟩ | ⟨j, rfl⟩ | ⟨j, rfl⟩ := h
  · rw [toNat_offsetOf_inBuf]; rfl
  · rw [toNat_offsetOf_kenc]; rfl
  · rw [toNat_offsetOf_kmac]; rfl

/-- An input buffer word lies among the keys or in IN_BUF. -/
theorem hostBuffer_offset {r : Reg} (h : HostBuffer r) :
    (0x040 ≤ (offsetOf r).toNat ∧ (offsetOf r).toNat + 4 ≤ 0x080) ∨
      (0x100 ≤ (offsetOf r).toNat ∧ (offsetOf r).toNat + 4 ≤ 0x200) := by
  obtain ⟨j, rfl⟩ | ⟨j, rfl⟩ | ⟨j, rfl⟩ := h
  · rw [toNat_offsetOf_inBuf, Config.inBase]; omega
  · rw [toNat_offsetOf_kenc, Config.kencBase]; omega
  · rw [toNat_offsetOf_kmac, Config.kmacBase]; omega

/-- Register offsets are word offsets. -/
theorem offsetOf_mod_four (r : Reg) : (offsetOf r).toNat % 4 = 0 := by
  have h : ¬BusRejects .word (offsetOf r) := by
    rw [busRejects_iff, accessReg, regAt_offsetOf]; exact Option.some_ne_none r
  unfold BusRejects at h
  omega

/-- Different registers are different words of the window. -/
theorem offsetOf_disjoint {r r' : Reg} (h : r' ≠ r) :
    (offsetOf r').toNat + 4 ≤ (offsetOf r).toNat ∨ (offsetOf r).toNat + 4 ≤ (offsetOf r').toNat := by
  have hne : (offsetOf r').toNat ≠ (offsetOf r).toNat := fun e =>
    h (Option.some.inj (by rw [← regAt_offsetOf r', ← regAt_offsetOf r, BitVec.eq_of_toNat_eq e]))
  have h1 := offsetOf_mod_four r
  have h2 := offsetOf_mod_four r'
  omega

end Sys2Proof.Machine

/-! The invariant (O6, O7). Each operation a step is made of keeps `Inv`: what leaves the outputs alone keeps it because the
invariant speaks of nothing else, and a completion finds the outputs clear, so the bytes past its result are still 0. -/

namespace Sys2Proof.Machine

/-- The invariant speaks of the memory, the outputs and STATUS alone. -/
theorem Inv.congr {s t : State} (h : Inv s) (hmem : t.mem = s.mem) (hlen : t.outLen = s.outLen) (hsw : t.sw = s.sw)
    (hres : t.result = s.result) (hst : t.status = s.status) : Inv t := by
  obtain ⟨hwf, hmapped, hbound, htail, hbusy, herr, hauth⟩ := h
  constructor <;> simpa only [OutputsClear, hmem, hlen, hsw, hres, hst]

/-- A change of STATUS that keeps BUSY, ERR and LOCKED and sets no DONE. -/
theorem Inv.withStatus {s : State} (h : Inv s) {st : Status} (hbusy : st.busy = s.status.busy)
    (hdone : s.status.done = false → st.done = false) (herr : st.err = s.status.err)
    (hlocked : st.locked = s.status.locked) : Inv { s with status := st } where
  memWf := h.memWf
  memMapped := h.memMapped
  outLenBound := h.outLenBound
  outTail := h.outTail
  busyClear hb := by
    obtain ⟨hd, he, hclear⟩ := h.busyClear (hbusy ▸ hb)
    exact ⟨hdone hd, herr.trans he, hclear⟩
  errClear he := h.errClear (herr ▸ he)
  authLocked he := hlocked.trans (h.authLocked (herr ▸ he))

/-- A change of the buffers outside OUT_BUF. -/
theorem Inv.withMem {s : State} (h : Inv s) {m : Memory} (hwf : m.wf) (hmapped : ∀ c ∈ m, bufferOffset c.1)
    (hout : ∀ a, outOffset a → m.read a = s.mem.read a) : Inv { s with mem := m } where
  memWf := hwf
  memMapped := hmapped
  outLenBound := h.outLenBound
  outTail a ha htail := (hout a ha).trans (h.outTail a ha htail)
  busyClear hb := by
    obtain ⟨hd, he, hlen, hsw, hres, hz⟩ := h.busyClear hb
    exact ⟨hd, he, hlen, hsw, hres, fun a ha => (hout a ha).trans (hz a ha)⟩
  errClear he := by
    obtain ⟨hlen, hsw, hres, hz⟩ := h.errClear he
    exact ⟨hlen, hsw, hres, fun a ha => (hout a ha).trans (hz a ha)⟩
  authLocked := h.authLocked

theorem Inv.respond {s : State} (h : Inv s) (r : BusResponse) : Inv (s.respond r) := h.congr rfl rfl rfl rfl rfl

theorem Inv.takeInput {s : State} (h : Inv s) (rest : List Input) : Inv (s.takeInput rest) := h.congr rfl rfl rfl rfl rfl

theorem read_issue_out (s : State) (w : Word) (a : Nat) (h : outOffset a) : (s.issue w).mem.read a = 0 := by
  rw [State.issue_mem, Memory.read_clear, if_pos h]

/-- R274: right after an issue the outputs are clear. -/
theorem outputsClear_issue (s : State) (w : Word) : OutputsClear (s.issue w) := ⟨rfl, rfl, rfl, read_issue_out s w⟩

theorem Inv.issue {s : State} (h : Inv s) (w : Word) : Inv (s.issue w) where
  memWf := Memory.wf_clear _ _ h.memWf
  memMapped c hc := h.memMapped c (List.mem_of_mem_filter hc)
  outLenBound := Nat.zero_le _
  outTail a ha _ := read_issue_out s w a ha
  busyClear _ := ⟨rfl, rfl, outputsClear_issue s w⟩
  errClear he := absurd rfl he
  authLocked he := by cases he

theorem inv_reset : Inv State.reset where
  memWf := Memory.wf_nil
  memMapped _ hc := by cases hc
  outLenBound := Nat.zero_le _
  outTail _ _ _ := rfl
  busyClear hb := by cases hb
  errClear he := absurd rfl he
  authLocked he := by cases he

theorem inv_resetAll (s : State) : Inv s.resetAll := inv_reset.congr rfl rfl rfl rfl rfl

/-- R82: an input buffer word is written outside OUT_BUF and inside the buffers. -/
theorem Inv.write_hostBuffer {s : State} (h : Inv s) {r : Reg} (hr : HostBuffer r) (v : Word) :
    Inv (s.applyWrite r v) := by
  have hoff := hostBuffer_offset hr
  rw [applyWrite_hostBuffer hr]
  refine h.withMem (Memory.wf_writeWord _ v h.memWf) (fun c hc => ?_) (fun a ha => ?_)
  · rcases Memory.mem_writeBytes _ hc with hc | hc
    · exact h.memMapped c hc
    · rw [length_lanes] at hc; omega
  · obtain ⟨hlo, -⟩ := ha
    rw [Config.outBase] at hlo
    rw [read_writeWord, if_neg (by omega)]

theorem Inv.applyWrite {s : State} (h : Inv s) (r : Reg) (v : Word) : Inv (s.applyWrite r v) := by
  cases r with
  | ctrl =>
    cases hv : v.getLsbD 0
    · rw [applyWrite_ctrl_ie hv]; exact h.congr rfl rfl rfl rfl rfl
    · rw [applyWrite_ctrl_srst hv]; exact inv_resetAll s
  | status => exact h.withStatus rfl (fun hd => by rw [Status.acknowledged_done, hd, Bool.false_and]) rfl rfl
  | cmd => exact h.issue v
  | inBuf j => exact h.write_hostBuffer (.inl ⟨j, rfl⟩) v
  | kenc j => exact h.write_hostBuffer (.inr (.inl ⟨j, rfl⟩)) v
  | kmac j => exact h.write_hostBuffer (.inr (.inr ⟨j, rfl⟩)) v
  | _ => exact h.congr rfl rfl rfl rfl rfl

theorem Inv.writeReg {s : State} (h : Inv s) (r : Reg) (v : Word) : Inv (s.writeReg r v) := by
  rcases writeReg_cases s r v with ⟨-, hw⟩ | ⟨-, hw⟩ <;> rw [hw]
  · exact h.withStatus rfl id rfl rfl
  · exact h.applyWrite r v

theorem Inv.perform {s : State} (h : Inv s) (i : Input) : Inv (s.perform i) := by
  rcases perform_cases s i with ⟨r, hp⟩ | ⟨r, v, off, -, -, hp⟩ | ⟨-, hp⟩ <;> rw [hp]
  · exact h.respond r
  · exact (h.writeReg r v).respond .written
  · exact inv_resetAll s

/-- R275 to R278: after a completion BUSY is 0 and AUTH has latched LOCKED, so what is left to show is about the memory and the
outputs. -/
theorem inv_of_completed {t : State} {st : Status} {e : Option ErrCode} (hst : t.status = st.completed e) (hwf : t.mem.wf)
    (hmapped : ∀ c ∈ t.mem, bufferOffset c.1) (hbound : t.outLen.toNat ≤ Config.outCap)
    (htail : ∀ a, outOffset a → Config.outBase + t.outLen.toNat ≤ a → t.mem.read a = 0)
    (hclear : e ≠ none → OutputsClear t) : Inv t where
  memWf := hwf
  memMapped := hmapped
  outLenBound := hbound
  outTail := htail
  busyClear hb := by rw [hst] at hb; cases hb
  errClear he := hclear (by rwa [hst] at he)
  authLocked he := by
    rw [hst, Status.completed_err] at he
    rw [hst, Status.completed_locked, he, beq_self_eq_true, Bool.or_true]

/-- R276: an error leaves the outputs as the issue cleared them. -/
theorem Inv.fail {s : State} (h : Inv s) (hclear : OutputsClear s) (e : ErrCode) : Inv (s.fail e) :=
  inv_of_completed rfl h.memWf h.memMapped h.outLenBound h.outTail fun _ => hclear

/-- R42, R275: a result string of at most 256 bytes over clear outputs is followed by zeros. -/
theorem Inv.succeed {s : State} (h : Inv s) (hclear : OutputsClear s) {o : Outputs}
    (hfits : ∀ bs, o.bytes = some bs → bs.length ≤ Config.outCap) : Inv (s.succeed o) := by
  obtain ⟨bytes, sw, matched, seen⟩ := o
  cases bytes with
  | none => exact inv_of_completed rfl h.memWf h.memMapped h.outLenBound h.outTail (absurd rfl)
  | some bs =>
    have hlen : bs.length ≤ Config.outCap := hfits bs rfl
    refine inv_of_completed rfl (Memory.wf_writeBytes bs _ h.memWf) (fun c hc => ?_)
      ((outLen_writeOut s hlen).trans_le hlen) (fun a ha htail => ?_) (absurd rfl)
    · rcases Memory.mem_writeBytes bs hc with hc | hc
      · exact h.memMapped c hc
      · rw [Config.outBase] at hc; rw [Config.outCap] at hlen; omega
    · obtain ⟨-, -, -, hzero⟩ := hclear
      rw [State.succeed_outLen, outLen_writeOut s hlen] at htail
      rw [State.succeed_mem, read_writeOut, if_neg (by omega)]
      exact hzero a ha

/-- R25: a byte string the engine computes fits OUT_BUF. -/
theorem engineResult_fits {s : State} {o : Outputs} {bs : List Byte} (h : engineResult s = .ok o)
    (hb : o.bytes = some bs) : bs.length ≤ Config.outCap := by
  unfold engineResult at h
  split at h
  · exact result_fits h hb
  · cases h

/-- R275: the completion of the command in flight. -/
theorem Inv.completion {s : State} (h : Inv s) (hb : s.status.busy = true) : Inv (s.complete (engineResult s)) := by
  obtain ⟨-, -, hclear⟩ := h.busyClear hb
  cases hr : engineResult s with
  | error e => exact h.fail hclear e
  | ok o => exact h.succeed hclear fun _ hbs => engineResult_fits hr hbs

/-- Settles O6: at reset every byte, every output and every flag is 0. -/
theorem invariantHoldsAtReset : Obligations.InvariantHoldsAtReset := inv_reset

/-- Settles O7, by the three kinds of step: the completion of the command in flight, nothing, or the next input. -/
theorem stepKeepsTheInvariant : Obligations.StepKeepsTheInvariant := by
  intro s t h hstep
  rcases step_cases hstep with ⟨hdue, he⟩ | ⟨-, -, rfl⟩ | ⟨-, i, rest, -, rfl⟩
  · rw [engineStep_eq_engineResult] at he
    cases he
    exact h.completion (busy_of_engineDue hdue)
  · exact h
  · exact (h.takeInput rest).perform i

end Sys2Proof.Machine

/-! The bits of the register words (O10 to O12): what a field register reads is the written word under its mask. -/

namespace Sys2Proof.Machine

/-! ### Words of fields -/

/-- The bits of a word that holds two flags. -/
theorem twoFlags_getLsbD : ∀ (b c : Bool) (i : Fin 32),
    (BitVec.ofNat 32 (2 * b.toNat + c.toNat)).getLsbD i.val = if i.val = 0 then c else (i.val == 1 && b) := by decide

theorem ctrlWord_ofWord (v : Word) : (Ctrl.ofWord v).word = v &&& 0x00000002 := by
  apply BitVec.eq_of_getLsbD_eq
  intro i hi
  refine (twoFlags_getLsbD (v.getLsbD 1) false ⟨i, hi⟩).trans ?_
  interval_cases i <;> simp

theorem kcfgWord_ofWord (v : Word) : (Kcfg.ofWord v).word = v &&& 0x00003F3F := by
  apply BitVec.eq_of_getLsbD_eq
  intro i hi
  interval_cases i <;> simp [Kcfg.word, Kcfg.ofWord]

theorem inLenWord_ofWord (v : Word) : (v.extractLsb' 0 9).setWidth 32 = v &&& 0x000001FF := by
  apply BitVec.eq_of_getLsbD_eq
  intro i hi
  interval_cases i <;> simp

theorem optWord_ofWord (v : Word) : (Opt.ofWord v).word = v &&& 0x0000FF07 := by
  apply BitVec.eq_of_getLsbD_eq
  intro i hi
  rw [Opt.word, BitVec.getLsbD_or, twoFlags_getLsbD _ _ ⟨i, hi⟩]
  interval_cases i <;> simp [Opt.ofWord]

theorem errCode_lt (e : Option ErrCode) : errCode e < 16 := by
  rcases e with _ | _ | _ <;> decide

/-- R35: a sum of four flags and a 4-bit code at bit 8, bit by bit. -/
theorem flagWord_bits : ∀ (b d w l : Bool) (c : Fin 16),
    let x := BitVec.ofNat 32 (b.toNat + 2 * d.toNat + 4 * w.toNat + 8 * l.toNat + 256 * c.val)
    x.getLsbD 0 = b ∧ x.getLsbD 1 = d ∧ x.getLsbD 2 = w ∧ x.getLsbD 3 = l ∧ x.extractLsb' 4 4 = 0 ∧
      x.extractLsb' 12 20 = 0 ∧ x.extractLsb' 8 4 = BitVec.ofNat 4 c.val := by decide

theorem errCode_bits (e : Option ErrCode) : BitVec.ofNat 4 (errCode e) =
    match e with
    | none => 0
    | some .crypto => 1
    | some .encoding => 2
    | some .auth => 3
    | some .illegalCmd => 4
    | some .length => 5
    | some .locked => 6 := by
  rcases e with _ | _ | _ <;> rfl

/-! ### Registers after a write to another -/

/-- The registers that hold a field of their own. -/
def FieldReg (r : Reg) : Prop :=
  r = .kcfg ∨ r = .sscLo ∨ r = .sscHi ∨ r = .hdr ∨ r = .inLen ∨ r = .opt ∨ r = .tag0 ∨ r = .tag1

/-- R85: a field register's write leaves every other register reading as before. -/
theorem readReg_applyWrite_field {r r' : Reg} (h : FieldReg r) (hne : r' ≠ r) (s : State) (v : Word) :
    (s.applyWrite r v).readReg r' = s.readReg r' := by
  obtain rfl | rfl | rfl | rfl | rfl | rfl | rfl | rfl := h <;> cases r' <;> try rfl
  -- what is left is the written register itself, once for each of the eight
  all_goals exact absurd rfl hne

theorem readReg_applyWrite_ctrl {v : Word} (h : v.getLsbD 0 = false) (s : State) :
    (s.applyWrite .ctrl v).readReg .ctrl = v &&& 0x00000002 := by
  rw [applyWrite_ctrl_ie h]; exact ctrlWord_ofWord v

/-- Settles O12: while BUSY = 0 a write is applied, and each register reads what its write stored. -/
theorem writtenRegistersReadBack : Obligations.WrittenRegistersReadBack := by
  intro s v hidle
  simp only [writeReg_idle hidle]
  refine ⟨⟨fun h => readReg_applyWrite_ctrl h s, kcfgWord_ofWord v, rfl, rfl, rfl, inLenWord_ofWord v, optWord_ofWord v,
    rfl, rfl, rfl⟩, ⟨rfl, rfl, rfl, rfl, rfl, rfl, rfl, rfl⟩, fun r r' h hne => readReg_applyWrite_field h hne s v,
    rfl, rfl, rfl⟩

/-! ### ID and STATUS -/

/-- Settles O10: a write to ID is applied without effect, or lost. -/
theorem idIsConstant : Obligations.IdIsConstant := by
  intro s v
  have hwrite : s.perform (.write .word 0x000 v) = (s.writeReg .id v).respond .written := perform_wr s .id v
  refine ⟨rfl, fun hidle => ?_, fun hbusy => ?_⟩
  · rw [hwrite, writeReg_idle hidle]; rfl
  · rw [hwrite, writeReg_lost hbusy (by decide) (by decide)]; rfl

/-- Settles O11: STATUS is four flags and a code, and a STATUS write always takes effect. -/
theorem statusBitsAndAcknowledge : Obligations.StatusBitsAndAcknowledge := by
  intro s v
  obtain ⟨hbusy, hdone, hwerr, hlocked, hlow, hhigh, herr⟩ :=
    flagWord_bits s.status.busy s.status.done s.status.werr s.status.locked ⟨_, errCode_lt s.status.err⟩
  refine ⟨hbusy, hdone, hwerr, hlocked, hlow, hhigh, herr.trans (errCode_bits _), ?_⟩
  rw [perform_wr, writeReg_status]; rfl

end Sys2Proof.Machine

/-! Buffer words and operands (O13, O14, O16): of memory, a read sees the word at the register's own offset, and never a key. -/

namespace Sys2Proof.Machine

/-! ### Buffer words -/

/-- R46, R47: of memory, a register read sees at most the word at its own offset, and no byte of a key. -/
theorem readReg_congr_mem (s : State) (m : Memory) (r : Reg)
    (h : ∀ a, 0x100 ≤ a → (offsetOf r).toNat ≤ a → a < (offsetOf r).toNat + 4 → m.read a = s.mem.read a) :
    State.readReg { s with mem := m } r = s.readReg r := by
  cases r with
  | inBuf j =>
    rw [toNat_offsetOf_inBuf] at h
    exact readWord_congr fun i hi => h _ (by rw [Config.inBase]; omega) (by omega) (by omega)
  | outBuf j =>
    rw [toNat_offsetOf_outBuf] at h
    exact readWord_congr fun i hi => h _ (by rw [Config.outBase]; omega) (by omega) (by omega)
  | _ => rfl

/-- Settles O14: a read sees no byte below IN_BUF. -/
theorem keysCannotBeRead : Obligations.KeysCannotBeRead := by
  intro s m width off h
  unfold State.readAnswer
  cases accessReg width off with
  | none => rfl
  | some r => exact congrArg BusResponse.data (readReg_congr_mem s m r fun a ha _ _ => h a (by omega))

/-- R82: lane i of the word at an offset is the byte i places on. -/
theorem lane_readWord (m : Memory) (a : Nat) (i : Fin 4) : (m.readWord a).extractLsb' (8 * i.val) 8 = m.read (a + i.val) := by
  rw [readWord_eq, ofLanes_byte]
  fin_cases i <;> rfl

/-- R82: a word reads back. -/
theorem readWord_writeWord_same (m : Memory) (a : Nat) (v : Word) : (m.writeWord a v).readWord a = v :=
  word_ext fun i => by
    rw [lane_readWord, read_writeWord, if_pos (by omega), Nat.add_sub_cancel_left]

/-- R85: an input buffer write leaves every other register and buffer word reading as before. -/
theorem readReg_applyWrite_hostBuffer {r r' : Reg} (h : HostBuffer r) (hne : r' ≠ r) (s : State) (v : Word) :
    (s.applyWrite r v).readReg r' = s.readReg r' := by
  have hdisj := offsetOf_disjoint hne
  rw [applyWrite_hostBuffer h]
  exact readReg_congr_mem s _ r' fun a _ hlo hhi => by rw [read_writeWord, if_neg (by omega)]

/-- Settles O13: while BUSY = 0 a buffer write is a word write to memory at the register's offset. -/
theorem bufferWordsSetTheirLanes : Obligations.BufferWordsSetTheirLanes := by
  intro s v hidle
  simp only [writeReg_idle hidle]
  refine ⟨fun j a => read_writeWord s.mem _ a v, fun j => readWord_writeWord_same s.mem _ v,
    fun j a => read_writeWord s.mem _ a v, fun j a => read_writeWord s.mem _ a v, fun j => ⟨rfl, rfl⟩,
    fun j => ⟨rfl, lane_readWord s.mem _⟩, fun r hr => ⟨?_, fun r' hne => readReg_applyWrite_hostBuffer hr hne s v⟩⟩
  rw [applyWrite_hostBuffer hr]

/-! ### Operands -/

/-- R38: the value of the counter. -/
theorem toNat_ssc (s : State) : s.ssc.toNat = s.sscHi.toNat * 2 ^ 32 + s.sscLo.toNat := by
  rw [State.ssc, BitVec.toNat_append, ← Nat.shiftLeft_add_eq_or_of_lt s.sscLo.isLt, Nat.shiftLeft_eq]

theorem byteAt_readBytes (m : Memory) (a n i : Nat) (h : i < n) : byteAt (m.readBytes a n) i = m.read (a + i) :=
  Memory.getD_readBytes m a n i h

theorem byteAt_lanes (v : Word) (i : Fin 4) : byteAt (lanes v) i.val = v.extractLsb' (8 * i.val) 8 :=
  lanes_getD v i.val i.isLt

theorem byteAt_append_left {a b : List Byte} {i : Nat} (h : i < a.length) : byteAt (a ++ b) i = byteAt a i :=
  List.getD_append a b 0 i h

theorem byteAt_append_right (a b : List Byte) (i : Nat) : byteAt (a ++ b) (a.length + i) = byteAt b i := by
  rw [byteAt, List.getD_append_right a b 0 _ (Nat.le_add_right _ i), Nat.add_sub_cancel_left, byteAt]

/-- Settles O16: each operand is a range of memory bytes or the lanes of its register. -/
theorem operandsAreTheRegisterBytes : Obligations.OperandsAreTheRegisterBytes := fun s =>
  ⟨length_inBytes s, byteAt_readBytes s.mem _ _, Memory.length_readBytes s.mem _ _, byteAt_readBytes s.mem _ _,
    Memory.length_readBytes s.mem _ _, byteAt_readBytes s.mem _ _, toNat_ssc s, byteAt_lanes s.hdr, fun i =>
    ⟨(byteAt_append_left i.isLt).trans (byteAt_lanes s.tag0 i),
      (byteAt_append_right (lanes s.tag0) _ i.val).trans (byteAt_lanes s.tag1 i)⟩⟩

end Sys2Proof.Machine

/-! Who changes what (O57, O58): a part of the state that completions leave alone changes only by a register write that takes
effect, or by a reset. -/

namespace Sys2Proof.Machine

/-- A part of the state that only a register write that takes effect, or a reset, can change. -/
structure HostOwned {α : Type} (f : State → α) : Prop where
  complete : ∀ s r, f (s.complete r) = f s
  takeInput : ∀ s rest, f (s.takeInput rest) = f s
  respond : ∀ s r, f (s.respond r) = f s
  writeLost : ∀ s : State, f { s with status := s.status.writeLost } = f s

/-- A step that changes such a part performs a reset or a register write that the gate lets through. -/
theorem HostOwned.step_changes {α : Type} {f : State → α} (hf : HostOwned f) {s t : State} (h : step s = .next t)
    (hne : f t ≠ f s) :
    s.engineDue = false ∧ ∃ i rest, s.pending = i :: rest ∧
      (isReset i = true ∨
        ∃ r v, i = wr r v ∧ s.gateOpen r = true ∧ f ((s.takeInput rest).applyWrite r v) ≠ f (s.takeInput rest)) := by
  rcases step_cases h with ⟨-, he⟩ | ⟨-, -, rfl⟩ | ⟨hdue, i, rest, hp, rfl⟩
  · rw [engineStep_eq_engineResult] at he
    cases he
    exact absurd (hf.complete s _) hne
  · exact absurd rfl hne
  · refine ⟨hdue, i, rest, hp, ?_⟩
    rw [← hf.takeInput s rest] at hne
    rcases perform_cases (s.takeInput rest) i with ⟨r, hr⟩ | ⟨r, v, off, rfl, hoff, hw⟩ | ⟨rfl, -⟩
    · rw [hr, hf.respond] at hne; exact absurd rfl hne
    · rw [hw, hf.respond] at hne
      rcases writeReg_cases (s.takeInput rest) r v with ⟨-, hw⟩ | ⟨hg, hw⟩ <;> rw [hw] at hne
      · exact absurd (hf.writeLost _) hne
      · exact .inr ⟨r, v, by rw [(regAt_eq_some_iff off r).mp hoff, wr], hg, hne⟩
    · exact .inl rfl

/-- R86: a write that takes effect on a register other than CTRL and STATUS finds BUSY = 0. -/
theorem idle_of_gateOpen {s : State} {r : Reg} (h : s.gateOpen r = true) (hc : r ≠ .ctrl) (hs : r ≠ .status) :
    s.status.busy = false := by
  simpa [State.gateOpen, hc, hs] using h

/-- R276: no completion writes an input register. -/
theorem complete_inputsKept (s : State) (r : Except ErrCode Outputs) : InputsKept s (s.complete r) := by
  cases r with
  | ok o => exact succeed_inputsKept s o
  | error e => exact (fail_endsWithError s e).inputs

/-- R276: a completion writes no byte below OUT_BUF. -/
theorem read_complete_of_lt (s : State) (r : Except ErrCode Outputs) {a : Nat} (h : a < Config.outBase) :
    (s.complete r).mem.read a = s.mem.read a := by
  cases r with
  | error e => rfl
  | ok o =>
    obtain ⟨bytes, sw, matched, seen⟩ := o
    cases bytes with
    | none => rfl
    | some bs => rw [State.complete_ok, State.succeed_mem, read_writeOut, if_neg (by omega)]

theorem hostOwned_ssc : HostOwned State.ssc where
  complete s r := by
    have h := complete_inputsKept s r
    rw [State.ssc, State.ssc, h.sscHi, h.sscLo]
  takeInput _ _ := rfl
  respond _ _ := rfl
  writeLost _ := rfl

/-- The registers whose write can change the counter. -/
theorem applyWrite_ssc_ne {s : State} {r : Reg} {v : Word} (h : (s.applyWrite r v).ssc ≠ s.ssc) :
    r = .sscLo ∨ r = .sscHi ∨ (r = .ctrl ∧ srst v = true) := by
  cases r with
  | sscLo => exact .inl rfl
  | sscHi => exact .inr (.inl rfl)
  | ctrl =>
    cases hv : srst v
    · rw [applyWrite_ctrl_ie hv] at h; exact absurd rfl h
    · exact .inr (.inr ⟨rfl, rfl⟩)
  | _ => exact absurd rfl h

/-- Settles O57: the counter is such a part, and the write is one to SSC_LO or SSC_HI. -/
theorem onlyTheHostChangesTheCounter : Obligations.OnlyTheHostChangesTheCounter := by
  refine ⟨toNat_ssc, ⟨rfl, rfl⟩, fun s t hstep hne => ?_⟩
  obtain ⟨hdue, i, rest, hp, hi⟩ := hostOwned_ssc.step_changes hstep hne
  refine ⟨hdue, i, rest, hp, ?_⟩
  obtain hi | ⟨r, v, rfl, hg, hw⟩ := hi
  · exact .inl hi
  · obtain rfl | rfl | ⟨rfl, hv⟩ := applyWrite_ssc_ne hw
    · exact .inr ⟨idle_of_gateOpen hg (by decide) (by decide), v, .inl rfl⟩
    · exact .inr ⟨idle_of_gateOpen hg (by decide) (by decide), v, .inr rfl⟩
    · exact .inl ((isReset_wr_ctrl v).trans hv)

theorem hostOwned_keyByte {a : Nat} (ha : a < 0x080) : HostOwned (fun s => s.mem.read a) where
  complete s r := read_complete_of_lt s r (by rw [Config.outBase]; omega)
  takeInput _ _ := rfl
  respond _ _ := rfl
  writeLost _ := rfl

/-- A byte an input buffer write changes is one of the word's four. -/
theorem offset_of_hostBuffer_changes {s : State} {r : Reg} (hr : HostBuffer r) {v : Word} {a : Nat}
    (h : (s.applyWrite r v).mem.read a ≠ s.mem.read a) : (offsetOf r).toNat = a - a % 4 := by
  rw [applyWrite_hostBuffer hr, read_writeWord] at h
  have hmod := offsetOf_mod_four r
  split_ifs at h with hin
  · omega
  · exact absurd rfl h

/-- The registers whose write can change a byte below IN_BUF: the word it is in, and CTRL by a reset. -/
theorem applyWrite_keyByte_ne {s : State} {r : Reg} {v : Word} {a : Nat} (ha : a < 0x080)
    (h : (s.applyWrite r v).mem.read a ≠ s.mem.read a) :
    (HostBuffer r ∧ (offsetOf r).toNat = a - a % 4) ∨ (r = .ctrl ∧ srst v = true) := by
  have word (hr : HostBuffer r) : HostBuffer r ∧ (offsetOf r).toNat = a - a % 4 :=
    ⟨hr, offset_of_hostBuffer_changes hr h⟩
  cases r with
  | inBuf j => exact .inl (word (.inl ⟨j, rfl⟩))
  | kenc j => exact .inl (word (.inr (.inl ⟨j, rfl⟩)))
  | kmac j => exact .inl (word (.inr (.inr ⟨j, rfl⟩)))
  | cmd =>
    have hout : ¬(Config.outBase ≤ a ∧ a < Config.outBase + Config.outCap) := by rw [Config.outBase]; omega
    rw [State.applyWrite, State.issue_mem, Memory.read_clear, if_neg hout] at h
    exact absurd rfl h
  | ctrl =>
    cases hv : srst v
    · rw [applyWrite_ctrl_ie hv] at h; exact absurd rfl h
    · exact .inr ⟨rfl, rfl⟩
  | _ => exact absurd rfl h

/-- Settles O58: a key byte is such a part, and the write is one to the word the byte is in. -/
theorem onlyTheHostChangesTheKeys : Obligations.OnlyTheHostChangesTheKeys := by
  intro s t a hstep _ ha hne
  obtain ⟨hdue, i, rest, hp, hi⟩ := (hostOwned_keyByte ha).step_changes hstep hne
  refine ⟨hdue, i, rest, hp, ?_⟩
  obtain hi | ⟨r, v, rfl, hg, hw⟩ := hi
  · exact .inl hi
  · obtain ⟨hr, hoff⟩ | ⟨rfl, hv⟩ := applyWrite_keyByte_ne ha hw
    · exact .inr ⟨idle_of_gateOpen hg hr.ne_ctrl hr.ne_status, offsetOf r, v, rfl, hoff⟩
    · exact .inl ((isReset_wr_ctrl v).trans hv)

end Sys2Proof.Machine

/-! Canonical memories (O60). -/

namespace Sys2Proof.Machine

/-- A canonical memory lists exactly the offsets that do not read 0, each with the byte it reads. -/
theorem Memory.mem_iff_read {m : Memory} (h : m.wf) (a : Nat) (v : Byte) : (a, v) ∈ m ↔ m.read a = v ∧ v ≠ 0 := by
  induction m with
  | nil => exact ⟨nofun, fun ⟨e, hv⟩ => absurd e.symm hv⟩
  | cons c m ih =>
    obtain ⟨b, w⟩ := c
    obtain ⟨hsorted, hne⟩ := h
    obtain ⟨hlt, hsorted⟩ := List.pairwise_cons.mp hsorted
    obtain ⟨hw, hne⟩ := List.forall_mem_cons.mp hne
    have ih := ih ⟨hsorted, hne⟩
    by_cases hab : a = b
    · subst hab
      have hout : (a, v) ∉ m := fun hm => lt_irrefl a (hlt _ hm)
      simp only [List.mem_cons, Prod.mk.injEq, true_and, hout, or_false, Memory.read, if_true]
      exact ⟨fun e => ⟨e.symm, e ▸ hw⟩, fun e => e.1.symm⟩
    · simp only [List.mem_cons, Prod.mk.injEq, hab, false_and, false_or, Memory.read, if_false, ih]

/-- Settles O60: memories that read alike list the same bytes, and rising lists of the same bytes are equal. -/
theorem canonicalMemoriesAreExtensional : Obligations.CanonicalMemoriesAreExtensional := by
  intro m m' h h' hread
  refine h.1.eq_of_mem_iff h'.1 fun c => ?_
  rw [Memory.mem_iff_read h, Memory.mem_iff_read h', hread]

end Sys2Proof.Machine

/-! The step and the platform (O4, O56). A step is the completion, the next input, or nothing, so there is always a next
state; a step of the platform moves one of its machines. -/

namespace Sys2Proof.Machine

/-! ### One step -/

/-- R275, R330: when the engine completes. -/
theorem engineDue_iff (s : State) :
    s.engineDue = true ↔ s.status.busy = true ∧ (s.countdown = 0 ∨ s.pending = []) := by
  simp [State.engineDue]

theorem engineDue_of_idle {s : State} (h : s.status.busy = false) : s.engineDue = false := by
  simp [State.engineDue, h]

theorem engineDue_of_waiting {s : State} {i : Input} {rest : List Input} (hc : 0 < s.countdown)
    (hp : s.pending = i :: rest) : s.engineDue = false := by
  simp [State.engineDue, hp, hc.ne']

theorem takeInput_of_idle {s : State} (h : s.status.busy = false) (rest : List Input) :
    s.takeInput rest = { s with pending := rest } := by
  simp [State.takeInput, h]

theorem takeInput_of_busy {s : State} (h : s.status.busy = true) (rest : List Input) :
    s.takeInput rest = { s with pending := rest, countdown := s.countdown - 1 } := by
  simp [State.takeInput, h]

theorem step_of_no_input {s : State} (hd : s.engineDue = false) (hp : s.pending = []) : step s = .next s := by
  simp [step, hd, hp]

/-- R93, R275: the completion is that of the command CMD decodes to. -/
theorem step_of_decode {s : State} (hd : s.engineDue = true) {i : Instr} (hi : decode s.cmd = .ok i) :
    step s = exec i s := by
  rw [step_of_engineDue hd, exec_eq, engineResult, hi]

/-- Settles O4: the four cases are the engine due, and not due with and without an input to come. -/
theorem stepRunsDecodedCommandOrNextInput : Obligations.StepRunsDecodedCommandOrNextInput := by
  refine fun s => ⟨fun i hb hdue hi => ?_, fun hb hp => ?_, fun i rest hb hp => ?_, fun i rest hb hc hp => ?_⟩
  · exact step_of_decode ((engineDue_iff s).mpr ⟨hb, hdue⟩) hi
  · exact step_of_no_input (engineDue_of_idle hb) hp
  · rw [step_of_pending (engineDue_of_idle hb) hp, takeInput_of_idle hb]
  · rw [step_of_pending (engineDue_of_waiting hc hp) hp, takeInput_of_busy hb]

/-- R275: no step faults or is refused. -/
theorem exists_step_eq_next (s : State) : ∃ t, step s = .next t := by
  cases hd : s.engineDue with
  | true => exact ⟨_, step_of_engineDue hd⟩
  | false =>
    cases hp : s.pending with
    | nil => exact ⟨s, step_of_no_input hd hp⟩
    | cons i rest => exact ⟨_, step_of_pending hd hp⟩

/-! ### Instances -/

theorem stepAt_of_none {p : Platform} {k : Nat} (h : p.instances[k]? = none) : p.stepAt k = .next p := by
  simp [Platform.stepAt, h]

theorem stepAt_of_step {p : Platform} {k : Nat} {s t : State} (h : p.instances[k]? = some s) (ht : step s = .next t) :
    p.stepAt k = .next { instances := p.instances.set k t } := by
  simp [Platform.stepAt, h, ht]

/-- R95: an input delivered at one place of the list waits there and nowhere else. -/
theorem getElem?_deliver (p : Platform) (k : Nat) (i : Input) (j : Nat) :
    (p.deliver k i).instances[j]? =
      if j = k then (p.instances[k]?).map (fun s => { s with pending := s.pending ++ [i] }) else p.instances[j]? := by
  rw [Platform.deliver, List.getElem?_modify]
  by_cases h : j = k
  · subst h; simp
  · simp [h, Ne.symm h]

/-- Settles O56: the platform's step sets one place of the list to that machine's next state, which there always is. -/
theorem instancesAreIndependent : Obligations.InstancesAreIndependent := by
  refine fun p k => ⟨?_, getElem?_deliver p k⟩
  cases hk : p.instances[k]? with
  | none => exact ⟨p, stepAt_of_none hk, rfl, fun _ _ => rfl, fun _ h => absurd h.symm (Option.some_ne_none _)⟩
  | some s =>
    obtain ⟨t, ht⟩ := exists_step_eq_next s
    obtain ⟨hlt, -⟩ := List.getElem?_eq_some_iff.mp hk
    refine ⟨_, stepAt_of_step hk ht, List.length_set, fun j hj => List.getElem?_set_ne hj.symm, ?_⟩
    rintro _ ⟨⟩
    exact ⟨t, ht, List.getElem?_set_self hlt⟩

end Sys2Proof.Machine

/-! What the bus answers, and what a command in flight is safe from (O8, O9, O15, O21). An access is rejected, and then gets a
bus error, or is a read or write of one register. -/

namespace Sys2Proof.Machine

/-! ### Answers -/

/-- R32, R84: the bus carries exactly the 32-bit accesses to registers. -/
theorem not_busRejects_iff (width : Width) (off : BitVec 12) :
    ¬BusRejects width off ↔ width = .word ∧ ∃ r, off = offsetOf r := by
  rw [busRejects_iff]
  cases width with
  | byte => simp [accessReg]
  | half => simp [accessReg]
  | word => simp only [accessReg, ← ne_eq, Option.ne_none_iff_exists', regAt_eq_some_iff, true_and]

theorem perform_read_rejected {width : Width} {off : BitVec 12} (h : BusRejects width off) (s : State) :
    s.perform (.read width off) = s.respond (.readError 0) := by
  rw [perform_read, State.readAnswer, (busRejects_iff width off).mp h]

theorem perform_write_rejected {width : Width} {off : BitVec 12} (h : BusRejects width off) (s : State) (v : Word) :
    s.perform (.write width off v) = s.respond .writeError := by
  rw [State.perform, State.writeAccess, (busRejects_iff width off).mp h]

/-- R82: a read of a register answers its word. -/
theorem perform_rd (s : State) (r : Reg) : s.perform (rd r) = s.respond (.data (s.readReg r)) := by
  rw [rd, perform_read, State.readAnswer, accessReg, regAt_offsetOf]

/-- R86: an accepted write is answered as written, applied or not. -/
theorem perform_wr_eq (s : State) (r : Reg) (v : Word) :
    s.perform (wr r v) = { s.writeReg r v with responses := s.responses ++ [.written] } := by
  rw [perform_wr, State.respond, writeReg_responses]

/-- Settles O8: a rejected access reaches no register, and every other reaches one. -/
theorem rejectedAccessesChangeNothing : Obligations.RejectedAccessesChangeNothing := by
  refine fun s width off v => ⟨fun h => ⟨perform_read_rejected h s, perform_write_rejected h s v⟩, fun h => ?_, ?_⟩
  · obtain ⟨rfl, r, rfl⟩ := (not_busRejects_iff width off).mp h
    exact ⟨rfl, r, rfl, perform_rd s r, congrArg State.responses (perform_wr_eq s r v)⟩
  · rintro r rfl
    exact ⟨(not_busRejects_iff _ _).mpr ⟨rfl, r, rfl⟩, perform_rd s r⟩

/-- Settles O9: an accepted write goes through the gate of its register. -/
theorem writesWhileBusyAreIgnored : Obligations.WritesWhileBusyAreIgnored := by
  refine fun s off v => ⟨fun h => perform_write_rejected h s v, fun hidle r hr => ?_, fun hbusy hacc hctrl hstatus => ?_,
    fun hv => ?_, fun hv => ?_, ?_⟩
  · rw [hr, ← wr, perform_wr_eq, writeReg_idle hidle]
  · obtain ⟨-, r, rfl⟩ := (not_busRejects_iff _ _).mp hacc
    have hc : r ≠ .ctrl := by rintro rfl; exact hctrl rfl
    have hs : r ≠ .status := by rintro rfl; exact hstatus rfl
    rw [← wr, perform_wr_eq, writeReg_lost hbusy hc hs, Status.writeLost]
  · exact (perform_wr_eq s .ctrl v).trans (by rw [writeReg_ctrl, applyWrite_ctrl_ie hv])
  · exact (perform_wr_eq s .ctrl v).trans (by rw [writeReg_ctrl, applyWrite_ctrl_srst hv, State.perform])
  · exact (perform_wr_eq s .status v).trans (by rw [writeReg_status, State.applyWrite, Status.acknowledged])

/-! ### Reads of clear outputs -/

/-- R49: a word of a clear OUT_BUF reads 0. -/
theorem readReg_outBuf_of_clear {s : State} (h : OutputsClear s) (j : Fin 64) : s.readReg (.outBuf j) = 0 := by
  obtain ⟨-, -, -, hz⟩ := h
  refine word_ext fun i => ?_
  rw [State.readReg, lane_readWord, hz _ (by simp only [outOffset, Config.outBase, Config.outCap]; omega)]
  simp

/-- R35, R271: no error reads as code 0. -/
theorem statusErr_of_none {s : State} (h : s.status.err = none) : (s.readReg .status).extractLsb' 8 4 = 0 := by
  obtain ⟨-, -, -, -, -, -, herr, -⟩ := statusBitsAndAcknowledge s 0
  rw [herr, h]

/-- Settles O15: while BUSY = 1 the invariant has the outputs as the issue cleared them. -/
theorem outputsReadZeroWhileBusy : Obligations.OutputsReadZeroWhileBusy := by
  intro s hinv hbusy
  obtain ⟨-, herr, hclear⟩ := hinv.busyClear hbusy
  have ⟨hlen, hsw, hres, _⟩ := hclear
  refine ⟨perform_rd s, readReg_outBuf_of_clear hclear, ?_, ?_, ?_, statusErr_of_none herr⟩
  · rw [State.readReg, hlen]; rfl
  · rw [State.readReg, hsw]; rfl
  · rw [State.readReg, hres]; rfl

/-! ### The command in flight -/

/-- Settles O21: an input while BUSY = 1 changes at most CTRL and STATUS, a reset clears STATUS, and a command completes
with its inputs kept. -/
theorem inFlightCommandIsFrozen : Obligations.InFlightCommandIsFrozen := by
  refine ⟨fun s i hbusy hi => ?_, fun s i hi => ?_, fun i s t ht => ?_⟩
  · obtain ⟨c, st, rs, hb, hlocked, -, hp⟩ := busy_perform hbusy i hi
    rw [hp]
    exact ⟨hb, rfl, rfl, rfl, rfl, rfl, rfl, rfl, rfl, rfl, hlocked, rfl, rfl⟩
  · obtain ⟨rs, hp⟩ := reset_perform hi
    rw [hp]
    exact ⟨rfl, rfl, rfl⟩
  · rw [exec_eq] at ht
    cases ht
    have kept := complete_inputsKept s (resultOf i s)
    exact ⟨kept.cmd, kept.kcfg, kept.hdr, kept.inLen, kept.opt, fun a _ ha => read_complete_of_lt s _ ha⟩

end Sys2Proof.Machine

/-! Command words (O1, O2, O3). A word is a command's exactly when RSVD is 0 and OPCODE is the command's number, so what the
decoder answers is read off the word's two fields. -/

namespace Sys2Proof.Machine

/-! ### The fields of a word -/

/-- R110: OPCODE is the word modulo 256. -/
theorem toNat_opcode (w : Word) : (opcode w).toNat = w.toNat % 256 := by
  simp [opcode]

/-- R110: RSVD is 0 exactly when the word is below 256. -/
theorem rsvd_eq_zero_iff (w : Word) : rsvd w = 0 ↔ w.toNat / 256 = 0 := by
  have hlt := w.isLt
  rw [← BitVec.toNat_inj, rsvd, BitVec.extractLsb'_toNat, Nat.shiftRight_eq_div_pow,
    show (0 : BitVec 24).toNat = 0 from rfl]
  omega

/-- R112: the number of a command selects it. -/
theorem ofOpcode_encode (i : Instr) : ofOpcode (encode i).toNat = some i := by
  cases i <;> rfl

/-- R112: an opcode selects a command exactly when it is the command's number. -/
theorem ofOpcode_eq_some_iff (n : Nat) (i : Instr) : ofOpcode n = some i ↔ n = (encode i).toNat := by
  refine ⟨fun h => ?_, fun h => h ▸ ofOpcode_encode i⟩
  unfold ofOpcode at h
  split at h <;> cases h <;> rfl

/-- R111, R112: the word of a command is its number, 1 to 10. -/
theorem toNat_encode_bounds (i : Instr) : 1 ≤ (encode i).toNat ∧ (encode i).toNat ≤ 10 := by
  cases i <;> decide

/-- R112, R115: the unassigned opcodes. -/
theorem ofOpcode_eq_none_iff (n : Nat) : ofOpcode n = none ↔ n = 0 ∨ 10 < n := by
  constructor
  · intro h
    by_contra hn
    obtain ⟨hlo, hhi⟩ : 1 ≤ n ∧ n ≤ 10 := by omega
    interval_cases n <;> cases h
  · intro h
    refine Option.eq_none_iff_forall_ne_some.mpr fun i hi => ?_
    have hn := (ofOpcode_eq_some_iff n i).mp hi
    have hb := toNat_encode_bounds i
    omega

/-! ### The decoder -/

/-- R115: RSVD not 0. -/
theorem decode_of_rsvd_ne_zero {w : Word} (hr : rsvd w ≠ 0) : decode w = .error .rsvdNonzero := by
  rw [decode, if_pos hr]

/-- R115: RSVD 0 and OPCODE unassigned. -/
theorem decode_of_unassigned {w : Word} (hr : rsvd w = 0) (ho : ofOpcode (opcode w).toNat = none) :
    decode w = .error .opcodeUnassigned := by
  rw [decode, if_neg (not_not.mpr hr), ho]

/-- R112: RSVD 0 and OPCODE assigned. -/
theorem decode_of_assigned {w : Word} {i : Instr} (hr : rsvd w = 0) (ho : ofOpcode (opcode w).toNat = some i) :
    decode w = .ok i := by
  rw [decode, if_neg (not_not.mpr hr), ho]

/-- R110 to R112: a word decodes to a command exactly when its fields are the command's. -/
theorem decode_eq_ok_iff (w : Word) (i : Instr) :
    decode w = .ok i ↔ rsvd w = 0 ∧ ofOpcode (opcode w).toNat = some i := by
  by_cases hr : rsvd w = 0
  · cases ho : ofOpcode (opcode w).toNat with
    | none => simp [decode_of_unassigned hr ho]
    | some j => simp [decode_of_assigned hr ho, hr]
  · simp only [decode_of_rsvd_ne_zero hr, hr, reduceCtorEq, false_and]

/-- R115: a word fails to decode exactly when RSVD is not 0 or OPCODE is unassigned. -/
theorem decode_eq_error_iff (w : Word) :
    (∃ e, decode w = .error e) ↔ rsvd w ≠ 0 ∨ ofOpcode (opcode w).toNat = none := by
  by_cases hr : rsvd w = 0
  · cases ho : ofOpcode (opcode w).toNat with
    | none => simp [decode_of_unassigned hr ho]
    | some j => simp [decode_of_assigned hr ho, hr]
  · exact iff_of_true ⟨_, decode_of_rsvd_ne_zero hr⟩ (.inl hr)

/-- R112: the words of the commands are the only ones that decode. -/
theorem decode_eq_ok_iff_eq_encode (w : Word) (i : Instr) : decode w = .ok i ↔ w = encode i := by
  have hb := toNat_encode_bounds i
  rw [decode_eq_ok_iff, rsvd_eq_zero_iff, toNat_opcode, ofOpcode_eq_some_iff, ← BitVec.toNat_inj]
  omega

theorem decode_encode (i : Instr) : decode (encode i) = .ok i :=
  (decode_eq_ok_iff_eq_encode _ i).mpr rfl

/-- R115: the illegal words are those that fail to decode. -/
theorem illegalWord_iff_decode_error (w : Word) : IllegalWord w ↔ ∃ e, decode w = .error e := by
  rw [decode_eq_error_iff, ne_eq, rsvd_eq_zero_iff, toNat_opcode, ofOpcode_eq_none_iff, IllegalWord]

/-- R81: a word is put together from its own lanes. -/
theorem ofLanes_lanes (w : Word) : ofLanes (lanes w) = w :=
  word_ext fun i => (ofLanes_byte _ _ _ _ i).trans (lanes_getD w i.val i.isLt)

/-- Log 20: a command's four bytes decode to it, and the bytes after them are left. -/
theorem decodeBytes_lanes_encode (i : Instr) (rest : List Byte) :
    decodeBytes (lanes (encode i) ++ rest) = .ok (i, rest) := by
  have h : decode (ofLanes (lanes (encode i))) = .ok i := by rw [ofLanes_lanes, decode_encode]
  simp only [lanes] at h
  simp only [lanes, List.cons_append, List.nil_append, decodeBytes, h]

/-- Settles O1: OPCODE and RSVD make up the word, and the lanes of a word give it back. -/
theorem decodeAndEncodeAgree : Obligations.DecodeAndEncodeAgree :=
  ⟨fun i w => decode_eq_ok_iff_eq_encode w i, decodeBytes_lanes_encode⟩

/-- Settles O2: each word of the table is its command's encoding. -/
theorem commandWordsDecode : Obligations.CommandWordsDecode :=
  ⟨decode_encode .pad, decode_encode .deriveIv, decode_encode .encData, decode_encode .decData,
    decode_encode .computeMac, decode_encode .verifyMac, decode_encode .prepare, decode_encode .unwrap,
    decode_encode .encBlock, decode_encode .decBlock⟩

/-! ### Illegal words -/

/-- R36: a word written to CMD while BUSY = 0 is issued, whatever it is. -/
theorem perform_wr_cmd_of_idle {s : State} (h : s.status.busy = false) (w : Word) :
    s.perform (wr .cmd w) = (s.issue w).respond .written := by
  rw [perform_wr, writeReg_idle h, State.applyWrite]

/-- R115: an illegal word in CMD completes with ILLEGAL_CMD. -/
theorem step_of_illegalWord {s : State} (hd : s.engineDue = true) (h : IllegalWord s.cmd) :
    step s = .next (s.fail .illegalCmd) := by
  obtain ⟨e, he⟩ := (illegalWord_iff_decode_error s.cmd).mp h
  rw [step_of_engineDue hd, engineResult, he, State.complete_error]

/-- Settles O3: a write to CMD issues any word, and the completion of one that fails to decode is the failure with
ILLEGAL_CMD. -/
theorem illegalWordsCompleteWithIllegalCmd : Obligations.IllegalWordsCompleteWithIllegalCmd := by
  refine fun w => ⟨illegalWord_iff_decode_error w, fun hw => ⟨fun s hidle => ?_, ?_⟩⟩
  · rw [perform_wr_cmd_of_idle hidle]
    exact ⟨rfl, rfl⟩
  · rintro s hdue rfl
    exact ⟨_, step_of_illegalWord hdue hw, fail_endsWithError s .illegalCmd⟩

end Sys2Proof.Machine

/-! The padding transform (O23 to O26). Unpad reads a string from its end: it answers d exactly when the string reversed is
at most 15 zeros, 0x80 and d reversed. The laws of Pad and Unpad follow from that and from Pad written out. -/

namespace Sys2Proof.Machine

/-! ### Pad -/

/-- R140: Pad written out. -/
theorem pad_eq (s : List Byte) : pad s = s ++ 0x80 :: List.replicate (15 - s.length % 16) 0x00 := rfl

theorem byteAt_replicate_zero (n i : Nat) : byteAt (List.replicate n 0x00) i = 0x00 := by
  rw [byteAt, List.getD_eq_getElem?_getD, List.getElem?_getD_replicate_default_eq]

theorem byteAt_pad_of_lt {s : List Byte} {i : Nat} (h : i < s.length) : byteAt (pad s) i = byteAt s i :=
  byteAt_append_left h

theorem byteAt_pad_length (s : List Byte) : byteAt (pad s) s.length = 0x80 :=
  byteAt_append_right s _ 0

theorem byteAt_pad_of_gt {s : List Byte} {i : Nat} (h : s.length < i) : byteAt (pad s) i = 0x00 := by
  obtain ⟨j, rfl⟩ := Nat.exists_eq_add_of_lt h
  rw [pad_eq, Nat.add_assoc, byteAt_append_right]
  exact byteAt_replicate_zero _ j

/-- Settles O24: the bytes of Pad are read off its form, and its length is the first multiple of 16 above that of s. -/
theorem padIsTheShortestPadding : Obligations.PadIsTheShortestPadding := by
  refine fun s => ⟨length_pad s, fun _ => byteAt_pad_of_lt, byteAt_pad_length s, fun _ => byteAt_pad_of_gt, fun n hlt hn => ?_⟩
  rw [length_pad]
  omega

/-! ### Unpad -/

/-- R142: the first byte of zeros and then 0x80 is the 0x80 itself, or a zero with one zero fewer after it. -/
theorem cons_eq_zeros_append_iff (k : Nat) (b : Byte) (rest t : List Byte) :
    (∃ z, z < k + 1 ∧ b :: rest = List.replicate z 0x00 ++ 0x80 :: t) ↔
      (b = 0x80 ∧ rest = t) ∨ (b = 0x00 ∧ ∃ z, z < k ∧ rest = List.replicate z 0x00 ++ 0x80 :: t) := by
  rw [Nat.exists_lt_succ_left]
  simp only [List.replicate_zero, List.nil_append, List.replicate_succ, List.cons_append, List.cons.injEq,
    and_left_comm (b := b = 0x00), exists_and_left]

/-- R142: one byte of the scan ends it when it is 0x80 and goes on when it is zero. -/
theorem unpadScan_cons_eq_some_iff (k : Nat) (b : Byte) (rest d : List Byte) :
    unpadScan (k + 1) (b :: rest) = some d ↔
      (b = 0x80 ∧ rest = d.reverse) ∨ (b = 0x00 ∧ unpadScan k rest = some d) := by
  rw [unpadScan]
  split_ifs with h80 h0
  · simp [h80, List.reverse_eq_iff]
  · simp only [h80, h0, false_and, or_self]
  · simp [not_not.mp h0]

/-- R142: the scan answers d exactly on fewer than k zeros, 0x80 and d reversed. -/
theorem unpadScan_eq_some_iff (k : Nat) (r d : List Byte) :
    unpadScan k r = some d ↔ ∃ z, z < k ∧ r = List.replicate z 0x00 ++ 0x80 :: d.reverse := by
  induction k generalizing r with
  | zero => simp [unpadScan]
  | succ k ih =>
    cases r with
    | nil => simp [unpadScan]
    | cons b rest => rw [cons_eq_zeros_append_iff, ← ih, unpadScan_cons_eq_some_iff]

/-- Settles O25: a string is d, 0x80 and z zeros exactly when its reverse is what the scan answers d on. -/
theorem unpadFindsTheLastEighty : Obligations.UnpadFindsTheLastEighty := by
  intro s d
  rw [unpad, unpadScan_eq_some_iff]
  simp only [Config.padScanLimit, Nat.lt_succ_iff, List.reverse_eq_iff, List.reverse_append, List.reverse_cons,
    List.reverse_reverse, List.reverse_replicate]

/-- R143: Unpad undoes Pad. -/
theorem unpad_pad (s : List Byte) : unpad (pad s) = some s :=
  (unpadFindsTheLastEighty (pad s) s).mpr ⟨15 - s.length % 16, Nat.sub_le _ _, by rw [pad_eq, List.append_cons]⟩

/-- Settles O23: the length of Pad, its form, and Unpad on it; a string with 31 zeros after 0x80 is past the scan limit. -/
theorem padAndUnpadLaws : Obligations.PadAndUnpadLaws := by
  refine ⟨fun s => ?_, fun s => ⟨⟨15 - s.length % 16, Nat.sub_le _ _, ?_⟩, unpad_pad s⟩, by decide⟩
  · rw [length_pad]
    omega
  · rw [pad_eq, List.append_cons]

/-! ### PAD -/

/-- R112, R115: a command's word runs the command, and with RSVD not 0 it completes with ILLEGAL_CMD. -/
theorem runsAs_encode (i : Instr) : RunsAs (encode i) i := by
  refine ⟨fun s hd hw => step_of_decode hd ?_, fun s hd _ hr => ?_⟩
  · rw [hw, decode_encode]
  · exact ⟨_, step_of_illegalWord hd (.inl hr), fail_endsWithError s .illegalCmd⟩

/-- R141: the padded input fits OUT_BUF exactly for IN_LEN up to 255. -/
theorem length_pad_inBytes_le_iff (s : State) : (pad s.inBytes).length ≤ Config.outCap ↔ s.inLen.toNat ≤ 255 := by
  rw [length_pad, length_inBytes, Config.outCap]
  omega

/-- R141: PAD is not keyed, so the one check shared with other commands that it performs is that of IN_LEN. -/
theorem runChecks_pad (s : State) :
    runChecks .pad s = if Config.inCap < s.inLen.toNat then .error .length else .ok () := by
  simp [runChecks_eq, keyed, readsIn]

/-- R141: what PAD computes. -/
theorem padResult_eq (s : State) :
    padResult s = if s.inLen.toNat ≤ 255 then .ok { bytes := some (pad s.inBytes) } else .error .length := by
  rw [padResult, runChecks_pad]
  by_cases h : Config.inCap < s.inLen.toNat
  · rw [if_pos h, error_bind, if_neg (by rw [Config.inCap] at h; omega)]
  · rw [if_neg h, ok_bind, check_bind]
    simp only [length_pad_inBytes_le_iff, decide_eq_true_eq]

theorem exec_pad_of_le {s : State} (h : s.inLen.toNat ≤ 255) :
    exec .pad s = .next (s.succeed { bytes := some (pad s.inBytes) }) := by
  rw [exec_eq, resultOf, padResult_eq, if_pos h, State.complete_ok]

theorem exec_pad_of_ge {s : State} (h : 256 ≤ s.inLen.toNat) : exec .pad s = .next (s.fail .length) := by
  rw [exec_eq, resultOf, padResult_eq, if_neg (by omega), State.complete_error]

/-- Settles O26: up to 255 bytes the result is Pad of the input, above it is LENGTH. -/
theorem padCommand : Obligations.PadCommand := by
  refine ⟨runsAs_encode .pad, fun s => ?_⟩
  by_cases h : s.inLen.toNat ≤ 255
  · refine ⟨_, exec_pad_of_le h, fun hge => absurd h (by omega), fun _ => ?_⟩
    rw [← length_inBytes, ← pad_eq]
    exact succeed_endsWithBytes s ((length_pad_inBytes_le_iff s).mpr h)
  · exact ⟨_, exec_pad_of_ge (by omega), fun _ => fail_endsWithError s .length, fun hle => absurd hle h⟩

end Sys2Proof.Machine

/-! The block cipher (O27 to O32). AES_D undoes AES_E layer by layer, for a key of any length: with `subShift` the keyless half
of a round, a round of one direction cancels against the same round of the other across `subShift`, so the folds over the round
numbers cancel by induction. CBC needs nothing of AES but that and the 16 bytes of a block. -/

namespace Sys2Proof.Machine

/-! ### The S-box -/

/-- R153: the affine transform of a byte. -/
def sboxAffine (b : Byte) : Byte :=
  b ^^^ b.rotateLeft 1 ^^^ b.rotateLeft 2 ^^^ b.rotateLeft 3 ^^^ b.rotateLeft 4 ^^^ 0x63

/-- R153: the byte whose affine transform is y. -/
def sboxAffineInv (y : Byte) : Byte := y.rotateLeft 1 ^^^ y.rotateLeft 3 ^^^ y.rotateLeft 6 ^^^ 0x05

theorem sboxAffine_sboxAffineInv : ∀ y : Byte, sboxAffine (sboxAffineInv y) = y := by decide +kernel

theorem sboxAffineInv_sbox_zero : sboxAffineInv (sbox 0) = 0 := by decide

/-- R153: SBOX[x] is the affine transform of the inverse of x. -/
theorem gmul_sboxAffineInv_sbox : ∀ x : Byte, x ≠ 0 → gmul x (sboxAffineInv (sbox x)) = 1 := by decide +kernel

/-- R154. -/
theorem invSbox_sbox : ∀ x : Byte, invSbox (sbox x) = x := by decide +kernel

/-- R154: SBOX is injective, so on the finitely many bytes its left inverse is its right inverse. -/
theorem sbox_invSbox (y : Byte) : sbox (invSbox y) = y :=
  have hleft : Function.LeftInverse invSbox sbox := invSbox_sbox
  hleft.rightInverse_of_surjective (Finite.surjective_of_injective hleft.injective) y

/-- Settles O27: the byte the affine transform takes to SBOX[x] is the inverse of x. -/
theorem sboxIsAffineOfInverse : Obligations.SboxIsAffineOfInverse := by
  refine fun x => ⟨⟨sboxAffineInv (sbox x), ?_, (sboxAffine_sboxAffineInv (sbox x)).symm⟩, invSbox_sbox x, sbox_invSbox x⟩
  split_ifs with hx
  · rw [hx, sboxAffineInv_sbox_zero]
  · exact gmul_sboxAffineInv_sbox x hx

/-! ### The layers of a round -/

/-- R155, R157: SubBytes and then ShiftRows. -/
def subShift (s : AesState) : AesState := shiftRows (subBytes s)

/-- R155, R158: InvShiftRows and then InvSubBytes. -/
def unsubShift (s : AesState) : AesState := invSubBytes (invShiftRows s)

@[simp] theorem unsubShift_subShift (s : AesState) : unsubShift (subShift s) = s := by
  simp [unsubShift, subShift, invSubBytes, subBytes, invShiftRows, shiftRows, AesState.map, Column.map, invSbox_sbox]

@[simp] theorem subShift_unsubShift (s : AesState) : subShift (unsubShift s) = s := by
  simp [unsubShift, subShift, invSubBytes, subBytes, invShiftRows, shiftRows, AesState.map, Column.map, sbox_invSbox]

@[simp] theorem invMixColumns_mixColumns (s : AesState) : invMixColumns (mixColumns s) = s := by
  simp [invMixColumns, mixColumns, AesState.map, invMix_mix]

@[simp] theorem mixColumns_invMixColumns (s : AesState) : mixColumns (invMixColumns s) = s := by
  simp [invMixColumns, mixColumns, AesState.map, mix_invMix]

theorem encRound_eq (w : List Column) (s : AesState) (i : Nat) :
    encRound w s i = addRoundKey w i (mixColumns (subShift s)) := rfl

theorem decRound_eq (w : List Column) (i : Nat) (s : AesState) :
    decRound w i s = invMixColumns (addRoundKey w i (unsubShift s)) := rfl

theorem decRound_subShift_encRound (w : List Column) (i : Nat) (s : AesState) :
    decRound w i (subShift (encRound w s i)) = subShift s := by
  rw [decRound_eq, encRound_eq, unsubShift_subShift, addRoundKey_twice, invMixColumns_mixColumns]

theorem encRound_unsubShift_decRound (w : List Column) (i : Nat) (s : AesState) :
    encRound w (unsubShift (decRound w i s)) i = unsubShift s := by
  rw [encRound_eq, decRound_eq, subShift_unsubShift, mixColumns_invMixColumns, addRoundKey_twice]

/-! ### All rounds -/

theorem decRounds_subShift_encRounds (w : List Column) (rounds : List Nat) (s : AesState) :
    rounds.foldr (decRound w) (subShift (rounds.foldl (encRound w) s)) = subShift s := by
  induction rounds generalizing s with
  | nil => rfl
  | cons i rounds ih => rw [List.foldr_cons, List.foldl_cons, ih, decRound_subShift_encRound]

theorem encRounds_unsubShift_decRounds (w : List Column) (rounds : List Nat) (s : AesState) :
    rounds.foldl (encRound w) (unsubShift (rounds.foldr (decRound w) s)) = unsubShift s := by
  induction rounds with
  | nil => rfl
  | cons i rounds ih => rw [List.foldr_cons, List.foldl_cons, encRound_unsubShift_decRound, ih]

/-- R157: AES_E on the AES state. -/
def encState (k : List Byte) (s : AesState) : AesState :=
  addRoundKey (keyWords k) (keyNr k)
    (subShift ((innerRounds k).foldl (encRound (keyWords k)) (addRoundKey (keyWords k) 0 s)))

/-- R158: AES_D on the AES state. -/
def decState (k : List Byte) (s : AesState) : AesState :=
  addRoundKey (keyWords k) 0
    (unsubShift ((innerRounds k).foldr (decRound (keyWords k)) (addRoundKey (keyWords k) (keyNr k) s)))

theorem aesE_eq (k b : List Byte) : aesE k b = (encState k (AesState.ofBytes b)).bytes := rfl

theorem aesD_eq (k b : List Byte) : aesD k b = (decState k (AesState.ofBytes b)).bytes := rfl

theorem decState_encState (k : List Byte) (s : AesState) : decState k (encState k s) = s := by
  rw [decState, encState, addRoundKey_twice, decRounds_subShift_encRounds, unsubShift_subShift, addRoundKey_twice]

theorem encState_decState (k : List Byte) (s : AesState) : encState k (decState k s) = s := by
  rw [decState, encState, addRoundKey_twice, encRounds_unsubShift_decRounds, subShift_unsubShift, addRoundKey_twice]

/-- R151: the block of the state of a block. -/
theorem bytes_ofBytes {b : List Byte} (hb : b.length = 16) : (AesState.ofBytes b).bytes = b := by
  have hrange : (AesState.ofBytes b).bytes = (List.range 16).map (byteAt b) := rfl
  rw [hrange]
  refine List.ext_getElem (by simp [hb]) fun i _ hi => ?_
  simp [byteAt, hi]

/-- R159: for a key of any length. -/
theorem aesD_aesE (k : List Byte) {b : List Byte} (hb : b.length = 16) : aesD k (aesE k b) = b := by
  rw [aesD_eq, aesE_eq, ofBytes_bytes, decState_encState, bytes_ofBytes hb]

/-- R159: for a key of any length. -/
theorem aesE_aesD (k : List Byte) {b : List Byte} (hb : b.length = 16) : aesE k (aesD k b) = b := by
  rw [aesD_eq, aesE_eq, ofBytes_bytes, encState_decState, bytes_ofBytes hb]

/-- Settles O29: each layer of a round cancels against its inverse, whatever the round keys are. -/
theorem aesDecryptionInvertsEncryption : Obligations.AesDecryptionInvertsEncryption :=
  fun k _ _ hb => ⟨aesD_aesE k hb, aesE_aesD k hb⟩

/-- Settles O28: the three encryptions are computed, and AES_D undoes each. -/
theorem aesKnownAnswers : Obligations.AesKnownAnswers := by
  unfold Obligations.AesKnownAnswers
  intro key p c16 c24 c32
  have h16 : aesE (key 16) p = c16 := by decide +kernel
  have h24 : aesE (key 24) p = c24 := by decide +kernel
  have h32 : aesE (key 32) p = c32 := by decide +kernel
  refine ⟨h16, h24, h32, ?_, ?_, ?_⟩
  · rw [← h16, aesD_aesE _ rfl]
  · rw [← h24, aesD_aesE _ rfl]
  · rw [← h32, aesD_aesE _ rfl]

/-! ### CBC -/

/-- R162: one block of CBC_E. -/
theorem cbcEBlocks_succ (k : List Byte) (n : Nat) (c p : List Byte) :
    cbcEBlocks k (n + 1) c p =
      aesE k (xorBytes (p.take 16) c) ++ cbcEBlocks k n (aesE k (xorBytes (p.take 16) c)) (p.drop 16) := rfl

/-- R163: one block of CBC_D. -/
theorem cbcDBlocks_succ (k : List Byte) (n : Nat) (prev c : List Byte) :
    cbcDBlocks k (n + 1) prev c = xorBytes (aesD k (c.take 16)) prev ++ cbcDBlocks k n (c.take 16) (c.drop 16) := rfl

/-- The block before block j, and iv before the first, is block j of the string with iv put in front. -/
theorem slice_prepend {iv : List Byte} (hiv : iv.length = 16) (s : List Byte) (j : Nat) :
    slice (iv ++ s) (16 * j) (16 * j + 16) = if j = 0 then iv else slice s (16 * (j - 1)) (16 * (j - 1) + 16) := by
  cases j with
  | zero => exact slice_head iv s hiv
  | succ j => exact slice_cons iv s hiv j

/-- R162: block j of CBC_E on n blocks. -/
theorem slice_cbcEBlocks (k : List Byte) {n j : Nat} (hj : j < n) {c : List Byte} (hc : c.length = 16) (p : List Byte) :
    slice (cbcEBlocks k n c p) (16 * j) (16 * j + 16) =
      aesE k (xorBytes (slice p (16 * j) (16 * j + 16)) (slice (c ++ cbcEBlocks k n c p) (16 * j) (16 * j + 16))) := by
  induction n generalizing j c p with
  | zero => exact absurd hj (Nat.not_lt_zero j)
  | succ n ih =>
    rw [cbcEBlocks_succ]
    cases j with
    | zero =>
      rw [Nat.mul_zero, Nat.zero_add, slice_head _ _ (length_aesE _ _), slice_head _ _ hc]
      rfl
    | succ j =>
      rw [slice_cons _ _ (length_aesE _ _), ih (Nat.lt_of_succ_lt_succ hj) (length_aesE _ _), slice_drop, slice_cons c _ hc]

/-- R163: block j of CBC_D on n blocks. -/
theorem slice_cbcDBlocks (k : List Byte) {n j : Nat} (hj : j < n) {prev c : List Byte} (hprev : prev.length = 16)
    (hc : 16 * n ≤ c.length) :
    slice (cbcDBlocks k n prev c) (16 * j) (16 * j + 16) =
      xorBytes (aesD k (slice c (16 * j) (16 * j + 16))) (slice (prev ++ c) (16 * j) (16 * j + 16)) := by
  induction n generalizing j prev c with
  | zero => exact absurd hj (Nat.not_lt_zero j)
  | succ n ih =>
    have hblock : (xorBytes (aesD k (c.take 16)) prev).length = 16 := by simp [hprev]
    rw [cbcDBlocks_succ]
    cases j with
    | zero =>
      rw [Nat.mul_zero, Nat.zero_add, slice_head _ _ hblock, slice_head _ _ hprev]
      rfl
    | succ j =>
      have htake : (c.take 16).length = 16 := by rw [List.length_take]; omega
      have hdrop : 16 * n ≤ (c.drop 16).length := by rw [List.length_drop]; omega
      rw [slice_cons _ _ hblock, ih (Nat.lt_of_succ_lt_succ hj) htake hdrop, slice_drop, List.take_append_drop,
        slice_cons prev c hprev]

/-- R163: CBC_D undoes CBC_E on n blocks. -/
theorem cbcDBlocks_cbcEBlocks (k : List Byte) (n : Nat) {c p : List Byte} (hc : c.length = 16) (hp : 16 * n ≤ p.length) :
    cbcDBlocks k n c (cbcEBlocks k n c p) = p.take (16 * n) := by
  induction n generalizing c p with
  | zero => simp [cbcDBlocks]
  | succ n ih =>
    have htake : (p.take 16).length = 16 := by rw [List.length_take]; omega
    have hxor : (xorBytes (p.take 16) c).length = 16 := by rw [length_xorBytes, htake, hc, Nat.min_self]
    have hdrop : 16 * n ≤ (p.drop 16).length := by rw [List.length_drop]; omega
    rw [cbcEBlocks_succ, cbcDBlocks_succ, List.take_left' (length_aesE _ _), List.drop_left' (length_aesE _ _),
      aesD_aesE k hxor, xorBytes_cancel _ _ (htake.trans hc.symm), ih (length_aesE _ _) hdrop, ← List.take_add]
    congr 1
    omega

/-- Settles O30: the equations hold block by block, with iv put in front of the chain. -/
theorem cbcChainsAndInverts : Obligations.CbcChainsAndInverts := by
  intro k iv p hiv hp
  have hblocks : 16 * (p.length / 16) = p.length := by omega
  have hlen : (cbcE k iv p).length = p.length := (length_cbcE k iv p).trans hblocks
  refine ⟨hlen, (length_cbcDBlocks k _ iv p hiv hblocks.le).trans hblocks, fun j hj => ?_, ?_⟩
  · rw [← slice_prepend hiv, ← slice_prepend hiv]
    exact ⟨slice_cbcEBlocks k hj hiv p, slice_cbcDBlocks k hj hiv hblocks.le⟩
  · have hinv := cbcDBlocks_cbcEBlocks k (p.length / 16) hiv hblocks.le
    rw [hblocks, List.take_length] at hinv
    rw [cbcD, hlen]
    exact hinv

/-! ### The shared checks of a keyed command that reads IN -/

/-- R161: the key check in the words of Safety.lean. -/
theorem keysAccepted_iff (s : State) : KeysAccepted s ↔ s.keysOk = true := by
  simp [keysOk_iff, KeysAccepted, Config.supportedKeylens]

theorem runChecks_of_ready {s : State} (h : ReadyWithInput s) (i : Instr) : runChecks i s = .ok () := by
  obtain ⟨hlocked, hlen, hkeys⟩ := h
  rw [keysAccepted_iff] at hkeys
  simp [runChecks_ok_iff, hlocked, hkeys, Config.inCap, hlen]

/-- R272, R273: the first three error clauses of a keyed command that reads IN. -/
theorem sharedErrors_of_keyed {i : Instr} {s : State} (hk : keyed i = true) (hr : readsIn s i = true) :
    SharedErrors s (s.complete (resultOf i s)) := by
  have hend {e : ErrCode} (h : runChecks i s = .error e) : EndsWithError s (s.complete (resultOf i s)) e := by
    rw [resultOf_error_of_checks h]
    exact fail_endsWithError s e
  rw [runChecks_eq] at hend
  refine ⟨fun hlocked => hend ?_, fun hlocked hlen => hend ?_, fun hlocked hlen hkeys => hend ?_⟩
  · simp [hk, hlocked]
  · simp [hk, hr, hlocked, Config.inCap, hlen]
  · rw [keysAccepted_iff, Bool.not_eq_true] at hkeys
    simp [hk, hlocked, hkeys, Config.inCap, Nat.not_lt.mpr hlen]

/-! ### ENC_BLOCK and DEC_BLOCK -/

/-- R165, R167: how a block command ends whose output, for a 16-byte input, is the block c. -/
def BlockCommandEnds (s t : State) (c : List Byte) : Prop :=
  SharedErrors s t ∧ (ReadyWithInput s → s.inLen.toNat ≠ 16 → EndsWithError s t .crypto) ∧
    (ReadyWithInput s → s.inLen.toNat = 16 → EndsWithBytes s t c)

theorem encBlockResult_of_ready {s : State} (h : ReadyWithInput s) :
    resultOf .encBlock s =
      if s.inLen.toNat = 16 then .ok { bytes := some (aesE s.kenc s.inBytes) } else .error .crypto := by
  simp [resultOf, encBlockResult, runChecks_of_ready h, check_bind, Config.blockLen]

theorem decBlockResult_of_ready {s : State} (h : ReadyWithInput s) :
    resultOf .decBlock s =
      if s.inLen.toNat = 16 then .ok { bytes := some (aesD s.kenc s.inBytes) } else .error .crypto := by
  simp [resultOf, decBlockResult, runChecks_of_ready h, check_bind, Config.blockLen]

/-- R165, R167: a keyed command that reads IN and has this result once the shared checks pass ends as a block command. -/
theorem blockCommandEnds_of_result {i : Instr} {s : State} {c : List Byte} (hk : keyed i = true)
    (hr : readsIn s i = true) (hc : c.length = 16)
    (hres : ReadyWithInput s →
      resultOf i s = if s.inLen.toNat = 16 then .ok { bytes := some c } else .error .crypto) :
    BlockCommandEnds s (s.complete (resultOf i s)) c := by
  refine ⟨sharedErrors_of_keyed hk hr, fun hready hlen => ?_, fun hready hlen => ?_⟩
  · rw [hres hready, if_neg hlen]
    exact fail_endsWithError s .crypto
  · rw [hres hready, if_pos hlen]
    exact succeed_endsWithBytes s (by rw [hc]; decide)

theorem encBlock_ends (s : State) : BlockCommandEnds s (s.complete (resultOf .encBlock s)) (aesE s.kenc s.inBytes) :=
  blockCommandEnds_of_result rfl rfl (length_aesE _ _) encBlockResult_of_ready

theorem decBlock_ends (s : State) : BlockCommandEnds s (s.complete (resultOf .decBlock s)) (aesD s.kenc s.inBytes) :=
  blockCommandEnds_of_result rfl rfl (length_aesD _ _) decBlockResult_of_ready

/-- Settles O31: the word is the encoding of ENC_BLOCK, and the completion is that of a block command. -/
theorem encBlockCommand : Obligations.EncBlockCommand :=
  ⟨runsAs_encode .encBlock, fun s => ⟨_, exec_eq .encBlock s, encBlock_ends s⟩⟩

/-- R277: OUT[0..len) holds the bytes a command ended with. -/
theorem EndsWithBytes.readBytes_out {s t : State} {bs : List Byte} (h : EndsWithBytes s t bs) :
    t.mem.readBytes Config.outBase bs.length = bs := by
  refine List.ext_getElem (Memory.length_readBytes _ _ _) fun i hi hi' => ?_
  simp [Memory.readBytes, h.mem, hi', byteAt]

/-- R165: what ENC_BLOCK leaves in OUT. -/
theorem readBytes_out_of_encBlock {s t : State} (hs : ReadyWithInput s) (hlen : s.inLen.toNat = 16)
    (ht : exec .encBlock s = .next t) : t.mem.readBytes 0x200 16 = aesE s.kenc s.inBytes := by
  obtain ⟨-, -, hbytes⟩ := encBlock_ends s
  rw [exec_eq] at ht
  cases ht
  exact (hbytes hs hlen).readBytes_out

/-- Settles O32: as for ENC_BLOCK, and AES_D undoes AES_E on the input block. -/
theorem decBlockCommand : Obligations.DecBlockCommand := by
  refine ⟨runsAs_encode .decBlock, fun s => ⟨_, exec_eq .decBlock s, decBlock_ends s⟩, fun s t u hs hlen ht hu hkenc hin => ?_⟩
  obtain ⟨-, -, hbytes⟩ := decBlock_ends u
  have hblock : s.inBytes.length = 16 := (length_inBytes s).trans hlen
  rw [readBytes_out_of_encBlock hs hlen ht] at hin
  have hlen' : u.inLen.toNat = 16 := by rw [← length_inBytes, hin, length_aesE]
  rw [hkenc, hin, aesD_aesE _ hblock] at hbytes
  exact ⟨_, exec_eq .decBlock u, hbytes hu hlen'⟩

end Sys2Proof.Machine

/-! Counter-derived IV and data (O33 to O37). A big-endian string splits into that of its number's upper bytes and that of its
lower ones, which gives the counter block's zeros and its value. A command's end follows from its result, and the result of
DEC_DATA on an OUT of ENC_DATA from CBC_D undoing CBC_E and Unpad undoing Pad. -/

namespace Sys2Proof.Machine

/-! ### The counter block -/

/-- R18: the first m of m + n big-endian bytes hold the number without its last n bytes. -/
theorem be_add (m n v : Nat) : be (m + n) v = be m (v >>> (8 * n)) ++ be n v := by
  simp only [be, List.range_add, List.map_append, List.map_map]
  congr 1
  · refine List.map_congr_left fun i hi => ?_
    have hi := List.mem_range.mp hi
    rw [← Nat.shiftRight_add, show 8 * (m + n - 1 - i) = 8 * n + 8 * (m - 1 - i) by omega]
  · refine List.map_congr_left fun i _ => ?_
    rw [Function.comp_apply, show m + n - 1 - (m + i) = n - 1 - i by omega]

theorem be_zero (n : Nat) : be n 0 = List.replicate n 0x00 := by
  simp [be]

theorem be_one (v : Nat) : be 1 v = [BitVec.ofNat 8 v] := rfl

/-- R18: the value of the n big-endian bytes of a number. -/
theorem intOf_be (n v : Nat) : intOf (be n v) = v % 256 ^ n := by
  induction n generalizing v with
  | zero => simp [be, intOf, Nat.mod_one]
  | succ n ih =>
    have hlast : intOf (be (n + 1) v) = intOf (be n (v >>> 8)) * 256 + v % 256 := by
      simp [be_add n 1, be_one, intOf, List.foldl_append]
    rw [hlast, ih, Nat.shiftRight_eq_div_pow, pow_succ' 256 n, Nat.mod_mul, Nat.add_comm, Nat.mul_comm]

theorem byteAt_be {n i : Nat} (h : i < n) (v : Nat) : byteAt (be n v) i = BitVec.ofNat 8 (v >>> (8 * (n - 1 - i))) := by
  simp [byteAt, be, h]

/-- R190: a 64-bit counter has no bytes above its lower eight. -/
theorem ivBlock_eq (ssc : BitVec 64) : ivBlock ssc = List.replicate 8 0x00 ++ be 8 ssc.toNat := by
  have hhigh : ssc.toNat >>> (8 * 8) = 0 := Nat.shiftRight_eq_zero _ _ ssc.isLt
  rw [ivBlock, be_add 8 8, hhigh, be_zero]

/-- Settles O33: the zeros and the bytes are those of the split block, and the value of be_16 is the counter, below 256^16. -/
theorem counterBlockIsBigEndian : Obligations.CounterBlockIsBigEndian := by
  refine fun ssc => ⟨ivBlock_eq ssc, length_be _ _, ?_, fun i hi => ?_⟩
  · rw [ivBlock, intOf_be, Nat.mod_eq_of_lt (ssc.isLt.trans (by decide))]
  · have hbyte := byteAt_append_right (List.replicate 8 0x00) (be 8 ssc.toNat) i
    rw [List.length_replicate] at hbyte
    rw [ivBlock_eq, hbyte, byteAt_be hi]
    rfl

/-! ### The end of a command from its result -/

/-- R276, R277: a command whose result is an error ends with it. -/
theorem endsWithError_of_result {i : Instr} {s : State} {e : ErrCode} (h : resultOf i s = .error e) :
    EndsWithError s (s.complete (resultOf i s)) e := by
  rw [h]
  exact fail_endsWithError s e

/-- R277: a command whose result is a byte string ends with it in OUT, where every result fits. -/
theorem endsWithBytes_of_result {i : Instr} {s : State} {bs : List Byte} (h : resultOf i s = .ok { bytes := some bs }) :
    EndsWithBytes s (s.complete (resultOf i s)) bs := by
  have hfits := result_fits h rfl
  rw [h]
  exact succeed_endsWithBytes s hfits

/-! ### DERIVE_IV -/

/-- R192: DERIVE_IV does not read IN, so of the shared checks it performs those of LOCKED and of the keys. -/
theorem deriveIvResult_eq (s : State) :
    resultOf .deriveIv s =
      if s.status.locked = true then .error .locked
      else if s.keysOk = true then .ok { bytes := some (deriveIv s.kenc s.ssc) }
      else .error .crypto := by
  rw [resultOf, deriveIvResult, runChecks_eq]
  cases s.status.locked <;> cases s.keysOk <;> simp [keyed, readsIn]

/-- Settles O34: the three cases of the result are those of the rule. -/
theorem deriveIvCommand : Obligations.DeriveIvCommand := by
  refine ⟨runsAs_encode .deriveIv, fun s => ⟨_, exec_eq .deriveIv s, fun hl => ?_, fun hl hk => ?_, fun hl hk => ?_⟩⟩
  · exact endsWithError_of_result (by rw [deriveIvResult_eq, if_pos hl])
  · rw [keysAccepted_iff] at hk
    exact endsWithError_of_result (by simp [deriveIvResult_eq, hl, hk])
  · rw [keysAccepted_iff] at hk
    exact endsWithBytes_of_result (by simp [deriveIvResult_eq, hl, hk, deriveIv, ivBlock])

/-! ### ENC_DATA -/

/-- R195: the ciphertext fits OUT_BUF exactly for IN_LEN up to 255. -/
theorem encDataResult_of_ready {s : State} (h : ReadyWithInput s) :
    resultOf .encData s =
      if s.inLen.toNat ≤ 255 then .ok { bytes := some (encData s.kenc s.ssc s.inBytes) } else .error .length := by
  have hfits : 16 * (s.inLen.toNat / 16 + 1) ≤ Config.outCap ↔ s.inLen.toNat ≤ 255 := by
    rw [Config.outCap]
    omega
  rw [resultOf, encDataResult, runChecks_of_ready h, ok_bind, check_bind]
  simp only [hfits, decide_eq_true_eq]

theorem encData_ends {s : State} (h : ReadyWithInput s) (hlen : s.inLen.toNat ≤ 255) :
    EndsWithBytes s (s.complete (resultOf .encData s)) (encData s.kenc s.ssc s.inBytes) :=
  endsWithBytes_of_result (by rw [encDataResult_of_ready h, if_pos hlen])

/-- Settles O35: past the shared checks IN_LEN alone decides between the ciphertext and LENGTH. -/
theorem encDataCommand : Obligations.EncDataCommand := by
  refine ⟨runsAs_encode .encData, fun s => ⟨_, exec_eq .encData s, sharedErrors_of_keyed rfl rfl, fun h hlen => ?_,
    encData_ends⟩⟩
  exact endsWithError_of_result (by rw [encDataResult_of_ready h, if_neg (by omega)])

/-! ### DEC_DATA -/

/-- R194: a ciphertext is a positive number of blocks, and then its padding decides. -/
theorem decData_eq (k : List Byte) (ssc : BitVec 64) (c : List Byte) :
    decData k ssc c =
      if 16 ≤ c.length ∧ c.length % 16 = 0 then (unpad (cbcD k (deriveIv k ssc) c)).elim (.error .auth) .ok
      else .error .crypto := by
  simp only [decData, check_bind, Bool.and_eq_true, decide_eq_true_eq, beq_iff_eq]
  cases unpad (cbcD k (deriveIv k ssc) c) <;> rfl

theorem decData_of_not_blocks (k : List Byte) (ssc : BitVec 64) {c : List Byte} (h : c.length = 0 ∨ c.length % 16 ≠ 0) :
    decData k ssc c = .error .crypto := by
  rw [decData_eq, if_neg (by omega)]

theorem decData_of_blocks (k : List Byte) (ssc : BitVec 64) {c : List Byte} (hpos : 0 < c.length) (h : c.length % 16 = 0) :
    decData k ssc c = (unpad (cbcD k (deriveIv k ssc) c)).elim (.error .auth) .ok := by
  rw [decData_eq, if_pos (by omega)]

/-- R198: past the shared checks DEC_DATA ends as DecData on the input does. -/
theorem decDataResult_of_ready {s : State} (h : ReadyWithInput s) :
    resultOf .decData s = (decData s.kenc s.ssc s.inBytes >>= fun d => .ok { bytes := some d }) := by
  rw [resultOf, decDataResult, runChecks_of_ready h, ok_bind]

theorem decData_ends_of_error {s : State} (h : ReadyWithInput s) {e : ErrCode}
    (he : decData s.kenc s.ssc s.inBytes = .error e) : EndsWithError s (s.complete (resultOf .decData s)) e :=
  endsWithError_of_result (by rw [decDataResult_of_ready h, he, error_bind])

theorem decData_ends_of_ok {s : State} (h : ReadyWithInput s) {d : List Byte}
    (hd : decData s.kenc s.ssc s.inBytes = .ok d) : EndsWithBytes s (s.complete (resultOf .decData s)) d :=
  endsWithBytes_of_result (by rw [decDataResult_of_ready h, hd, ok_bind])

/-- Settles O36: past the shared checks the length of the input and then its padding decide. -/
theorem decDataCommand : Obligations.DecDataCommand := by
  refine ⟨runsAs_encode .decData, fun s => ⟨_, exec_eq .decData s, sharedErrors_of_keyed rfl rfl, fun h hlen => ?_,
    fun h hpos hmod => ?_⟩⟩
  · rw [← length_inBytes] at hlen
    exact decData_ends_of_error h (decData_of_not_blocks _ _ hlen)
  · rw [← length_inBytes] at hpos hmod ⊢
    have hdec := decData_of_blocks s.kenc s.ssc hpos hmod
    refine ⟨fun hnone => decData_ends_of_error h ?_, fun d hsome => ?_⟩
    · rw [hdec, deriveIv, ivBlock, hnone, Option.elim_none]
    · rw [deriveIv, ivBlock, hsome, Option.elim_some] at hdec
      exact ⟨decData_ends_of_ok h hdec, length_decData hdec⟩

/-! ### DEC_DATA on the output of ENC_DATA -/

/-- R163: CBC_D undoes CBC_E. -/
theorem cbcD_cbcE (k : List Byte) {iv p : List Byte} (hiv : iv.length = 16) (hp : p.length % 16 = 0) :
    cbcD k iv (cbcE k iv p) = p := by
  obtain ⟨-, -, -, hinv⟩ := cbcChainsAndInverts k iv p hiv hp
  exact hinv

/-- R196: for a key of any length. -/
theorem decData_encData (k : List Byte) (ssc : BitVec 64) (d : List Byte) : decData k ssc (encData k ssc d) = .ok d := by
  have hlen := length_encData k ssc d
  have hcbc : cbcD k (deriveIv k ssc) (encData k ssc d) = pad d :=
    cbcD_cbcE k (length_deriveIv k ssc) (by rw [length_pad]; omega)
  rw [decData_of_blocks k ssc (by omega) (by omega), hcbc, unpad_pad, Option.elim_some]

/-- R195: what ENC_DATA leaves in OUT. -/
theorem readBytes_out_of_encData {s t : State} (hs : ReadyWithInput s) (hlen : s.inLen.toNat ≤ 255)
    (ht : exec .encData s = .next t) : t.mem.readBytes 0x200 t.outLen.toNat = encData s.kenc s.ssc s.inBytes := by
  rw [exec_eq] at ht
  cases ht
  have hend := encData_ends hs hlen
  rw [hend.outLen]
  exact hend.readBytes_out

/-- Settles O37: DEC_DATA computes DecData on what ENC_DATA left in OUT. -/
theorem decDataInvertsEncData : Obligations.DecDataInvertsEncData := by
  refine ⟨fun k ssc d _ => decData_encData k ssc d, fun s t u hs hlen ht hu hkenc hssc hin => ?_⟩
  rw [readBytes_out_of_encData hs hlen ht] at hin
  refine ⟨_, exec_eq .decData u, decData_ends_of_ok hu ?_⟩
  rw [hkenc, hssc, hin, decData_encData]

end Sys2Proof.Machine

/-! The MAC engine (O38 to O41). On whole blocks the engine's loop is the chaining of the general CMAC with K1 folded into the
last block. COMPUTE_MAC and VERIFY_MAC have no checks of their own, so past the shared checks each has one result, and
VERIFY_MAC compares the tag with the OUT of COMPUTE_MAC. -/

namespace Sys2Proof.Machine

/-! ### CMAC on whole blocks -/

/-- R212: the last block enters under K1. -/
theorem cmac8Blocks_one (k c p : List Byte) :
    cmac8Blocks k 1 c p = aesE k (xorBytes c (xorBytes (p.take 16) (cmacK1 k))) := rfl

/-- R212: a block before the last enters as it is. -/
theorem cmac8Blocks_succ_succ (k : List Byte) (n : Nat) (c p : List Byte) :
    cmac8Blocks k (n + 2) c p = cmac8Blocks k (n + 1) (aesE k (xorBytes c (p.take 16))) (p.drop 16) := rfl

/-- R211: the blocks as the general CMAC chains them when the last one is whole: K1 in the last, the others as they are. -/
def blocksUnderK1 (k : List Byte) (n : Nat) (p : List Byte) : List (List Byte) :=
  (blocksOf n p).dropLast ++ [xorBytes ((blocksOf n p).getLastD []) (cmacK1 k)]

theorem blocksUnderK1_one (k p : List Byte) : blocksUnderK1 k 1 p = [xorBytes (p.take 16) (cmacK1 k)] := rfl

theorem blocksUnderK1_succ_succ (k : List Byte) (n : Nat) (p : List Byte) :
    blocksUnderK1 k (n + 2) p = p.take 16 :: blocksUnderK1 k (n + 1) (p.drop 16) := rfl

/-- R211: on a positive number of whole blocks the general CMAC chains them with K1 in the last. -/
theorem cmac_of_whole_blocks (k : List Byte) {p : List Byte} {n : Nat} (hp : p.length = 16 * (n + 1)) :
    cmac k p = cmacChain k (zeros 16) (blocksUnderK1 k (n + 1) p) := by
  have hcount : cmacCount p = n + 1 := by rw [cmacCount]; omega
  have hwhole : 0 < p.length ∧ p.length % 16 = 0 := by omega
  simp only [cmac, hcount, cmacLast, if_pos hwhole, blocksUnderK1]

/-- R212: the engine's loop is that chaining. -/
theorem cmac8Blocks_eq_cmacChain (k : List Byte) (n : Nat) (c p : List Byte) :
    cmac8Blocks k (n + 1) c p = cmacChain k c (blocksUnderK1 k (n + 1) p) := by
  induction n generalizing c p with
  | zero => rw [cmac8Blocks_one, blocksUnderK1_one, cmacChain, cmacChain]
  | succ n ih => rw [cmac8Blocks_succ_succ, blocksUnderK1_succ_succ, cmacChain, ih]

/-- R212, R213: the engine's loop on a padded message, before the cut to 8 bytes, is the general CMAC. -/
theorem cmac_pad (k m : List Byte) : cmac k (pad m) = cmac8Blocks k (m.length / 16 + 1) (zeros 16) (pad m) := by
  rw [cmac_of_whole_blocks k (length_pad m), cmac8Blocks_eq_cmacChain]

/-- Settles O38: the short form is the cut of the engine's loop, which on a padded message is the general CMAC. -/
theorem shortCmacIsTheGeneralCmac : Obligations.ShortCmacIsTheGeneralCmac := by
  refine fun k m => ⟨?_, ?_, length_mac_eq k m⟩
  · have hblocks : (pad m).length / 16 = m.length / 16 + 1 := by rw [length_pad]; omega
    rw [cmac8, hblocks, cmac_pad, Config.macLen]
  · rw [cmac_pad, length_cmac8Blocks]

/-! ### COMPUTE_MAC -/

/-- R214: past the shared checks COMPUTE_MAC has no check of its own. -/
theorem computeMacResult_of_ready {s : State} (h : ReadyWithInput s) :
    resultOf .computeMac s = .ok { bytes := some (mac s.kmac s.inBytes) } := by
  rw [resultOf, computeMacResult, runChecks_of_ready h, ok_bind]

theorem computeMac_ends {s : State} (h : ReadyWithInput s) :
    EndsWithBytes s (s.complete (resultOf .computeMac s)) (mac s.kmac s.inBytes) :=
  endsWithBytes_of_result (computeMacResult_of_ready h)

/-- Settles O39: past the shared checks the result is the MAC of the input, and a MAC has 8 bytes. -/
theorem computeMacCommand : Obligations.ComputeMacCommand := by
  refine ⟨runsAs_encode .computeMac, fun s => ⟨_, exec_eq .computeMac s, sharedErrors_of_keyed rfl rfl, fun h => ?_⟩⟩
  have hend := computeMac_ends h
  exact ⟨hend, BitVec.eq_of_toNat_eq (hend.outLen.trans (length_mac_eq _ _))⟩

/-- R214: what COMPUTE_MAC leaves in OUT. -/
theorem readBytes_out_of_computeMac {s t : State} (hs : ReadyWithInput s) (ht : exec .computeMac s = .next t) :
    t.mem.readBytes 0x200 8 = mac s.kmac s.inBytes := by
  rw [exec_eq] at ht
  cases ht
  have hout := (computeMac_ends hs).readBytes_out
  rwa [length_mac_eq] at hout

/-! ### VERIFY_MAC -/

/-- R215: the comparison is equality of the two tags. -/
theorem verifyMac_eq_decide (k m t : List Byte) : verifyMac k m t = decide (mac k m = t) := by
  rw [verifyMac, beq_eq_decide]

/-- R217: as functions. -/
theorem verifyMac_mac (k m : List Byte) : verifyMac k m (mac k m) = true := by
  rw [verifyMac, beq_self_eq_true]

/-- R216: past the shared checks VERIFY_MAC has no check of its own. -/
theorem verifyMacResult_of_ready {s : State} (h : ReadyWithInput s) :
    resultOf .verifyMac s = .ok { matched := some (verifyMac s.kmac s.inBytes s.tag) } := by
  rw [resultOf, verifyMacResult, runChecks_of_ready h, ok_bind]

theorem verifyMac_ends {s : State} (h : ReadyWithInput s) :
    EndsWithMatch s (s.complete (resultOf .verifyMac s)) (verifyMac s.kmac s.inBytes s.tag) := by
  rw [verifyMacResult_of_ready h]
  exact succeed_endsWithMatch s _

/-- Settles O40: past the shared checks the result is the comparison, whichever way it goes. -/
theorem verifyMacCommand : Obligations.VerifyMacCommand := by
  refine ⟨runsAs_encode .verifyMac, fun s => ⟨_, exec_eq .verifyMac s, sharedErrors_of_keyed rfl rfl, fun h => ?_⟩⟩
  have hend := verifyMac_ends h
  rwa [verifyMac_eq_decide] at hend

/-- Settles O41: the tag is the MAC that COMPUTE_MAC left in OUT. -/
theorem computedMacVerifies : Obligations.ComputedMacVerifies := by
  refine ⟨verifyMac_mac, fun s t u hs ht hu hkmac hin htag => ?_⟩
  have hend := verifyMac_ends hu
  rw [htag, readBytes_out_of_computeMac hs ht, hkmac, hin, verifyMac_mac] at hend
  obtain ⟨-, -, herr, -⟩ := hend.status
  exact ⟨_, exec_eq .verifyMac u, herr, hend.matched⟩

end Sys2Proof.Machine

/-! The assembler and the parser (O42 to O48). On data of up to 111 bytes the assembler's two length checks pass, so what
PREPARE computes is written out by cases of the state. A response is read off from its end: past its DO87 exactly fourteen
bytes, DO99 and DO8E, may follow; UNWRAP then ends as the comparison of the MAC and DecData on the ciphertext say. -/

namespace Sys2Proof.Machine

/-! ### The protected header -/

/-- R230: bits 2 and 3 are set, every other bit is CLA's. -/
theorem getLsbD_secureCla (cla : Byte) {i : Nat} (hi : i < 8) :
    (secureCla cla).getLsbD i = (i == 2 || i == 3 || cla.getLsbD i) := by
  interval_cases i <;> simp [secureCla]

/-- Settles O42: byte 0 is the secure CLA, and the rest of the header is copied. -/
theorem protectedHeaderSetsTheSmBits : Obligations.ProtectedHeaderSetsTheSmBits := by
  refine fun h _ => ⟨length_protectedHeader h, rfl, fun i hi => getLsbD_secureCla _ hi, fun j hj hj' => ?_⟩
  interval_cases j <;> rfl

/-! ### The parts of the protected command -/

/-- R232: the DO87 of up to 111 bytes of data has a short-form length. -/
theorem buildDo87_of_le (kenc : List Byte) (ssc : BitVec 64) {d : List Byte} (h : d.length ≤ 111) :
    buildDo87 kenc ssc (some d) = .ok (do87Of (encData kenc ssc d)) := by
  have hlen := length_encData kenc ssc d
  rw [buildDo87, check_decide_pos (by omega), ok_bind]

/-- R232: that of more data has not. -/
theorem buildDo87_of_ge (kenc : List Byte) (ssc : BitVec 64) {d : List Byte} (h : 112 ≤ d.length) :
    buildDo87 kenc ssc (some d) = .error .encoding := by
  have hlen := length_encData kenc ssc d
  rw [buildDo87, check_decide_neg (by omega), error_bind]

/-- R233: a body of at most 255 bytes is assembled. -/
theorem assemble_of_le (kmac : List Byte) (ssc : BitVec 64) (ph : List Byte) {do87 do97 : List Byte}
    (h : do87.length + do97.length ≤ 245) :
    let tag := mac kmac (commandMacInput ssc ph do87 do97)
    let body := do87 ++ do97 ++ do8eOf tag
    assemble kmac ssc ph do87 do97 = .ok (ph ++ [lenByte body.length] ++ body ++ [0x00]) := by
  have htag := length_mac_eq kmac (commandMacInput ssc ph do87 do97)
  rw [assemble, check_decide_pos, ok_bind]
  simp only [do8eOf, List.length_append, List.length_cons, List.length_nil, htag]
  omega

theorem State.data_of_present {s : State} (h : s.opt.dataPresent = true) : s.data = some s.inBytes := by
  rw [State.data, if_pos h]

theorem State.data_of_absent {s : State} (h : s.opt.dataPresent = false) : s.data = none := by
  simp [State.data, h]

theorem commandDo87_of_present {s : State} (h : s.opt.dataPresent = true) :
    commandDo87 s = do87Of (encData s.kenc s.ssc s.inBytes) := by
  rw [commandDo87, if_pos h]
  rfl

theorem commandDo87_of_absent {s : State} (h : s.opt.dataPresent = false) : commandDo87 s = [] := by
  simp [commandDo87, h]

/-- R231, R232: DO87 as the assembler builds it from the state's data. -/
theorem buildDo87_data {s : State} (h : s.opt.dataPresent = true → s.inLen.toNat ≤ 111) :
    buildDo87 s.kenc s.ssc s.data = .ok (commandDo87 s) := by
  cases hp : s.opt.dataPresent with
  | false => rw [State.data_of_absent hp, commandDo87_of_absent hp, buildDo87]
  | true =>
    rw [State.data_of_present hp, commandDo87_of_present hp, buildDo87_of_le]
    rw [length_inBytes]
    exact h hp

/-- R233: DO97 as the assembler builds it from the state's le. -/
theorem buildDo97_le (s : State) : buildDo97 s.le = commandDo97 s := by
  rw [State.le, commandDo97]
  split_ifs <;> rfl

/-- R236: the length of DO87. -/
theorem length_commandDo87 (s : State) :
    (commandDo87 s).length = if s.opt.dataPresent then 3 + 16 * (s.inLen.toNat / 16 + 1) else 0 := by
  cases hp : s.opt.dataPresent with
  | false => rw [commandDo87_of_absent hp]; rfl
  | true => rw [commandDo87_of_present hp, length_do87Of, length_encData, length_inBytes, if_pos rfl]

/-- R236: the length of DO97. -/
theorem length_commandDo97 (s : State) :
    (commandDo97 s).length = if s.opt.lePresent then 2 + s.opt.leLen.toNat else 0 := by
  rw [commandDo97]
  split_ifs with hp hl
  · rw [hl]; rfl
  · rw [BitVec.eq_zero_or_eq_one s.opt.leLen |>.resolve_right hl]; rfl
  · rfl

/-- R236: the length of the protected command. -/
theorem length_protectedCommand (s : State) :
    (protectedCommand s).length = 4 + 1 + ((commandDo87 s).length + (commandDo97 s).length + 10) + 1 := by
  simp only [protectedCommand, List.length_append, List.length_cons, List.length_nil, length_mac_eq]

/-- R232, R236: DO87 and DO97 of a command whose data is at most 111 bytes. -/
theorem length_commandParts_le {s : State} (h : s.opt.dataPresent = true → s.inLen.toNat ≤ 111) :
    (commandDo87 s).length + (commandDo97 s).length ≤ 118 := by
  have h87 : (commandDo87 s).length ≤ 115 := by
    rw [length_commandDo87]
    split_ifs with hp
    · have := h hp; omega
    · omega
  have h97 : (commandDo97 s).length ≤ 3 := by
    have hle := s.opt.leLen.isLt
    rw [length_commandDo97]
    split_ifs <;> omega
  omega

/-- R235: with data of at most 111 bytes the assembler answers the command written out. -/
theorem prepare_state_of_le {s : State} (h : s.opt.dataPresent = true → s.inLen.toNat ≤ 111) :
    prepare s.kenc s.kmac s.ssc s.header s.data s.le = .ok (protectedCommand s) := by
  have hparts := length_commandParts_le h
  rw [prepare, buildDo87_data h, ok_bind, buildDo97_le, assemble_of_le _ _ _ (by omega)]
  simp only [do8eOf, ← List.append_assoc]
  rfl

/-- R235: with more data it raises ENCODING. -/
theorem prepare_state_of_ge {s : State} (hp : s.opt.dataPresent = true) (h : 112 ≤ s.inLen.toNat) :
    prepare s.kenc s.kmac s.ssc s.header s.data s.le = .error .encoding := by
  rw [prepare, State.data_of_present hp, buildDo87_of_ge _ _ (by rwa [length_inBytes]), error_bind]

/-! ### PREPARE -/

/-- R235: what PREPARE computes, its errors in order. -/
theorem prepareResult_eq (s : State) :
    resultOf .prepare s =
      if s.status.locked = true then .error .locked
      else if s.opt.dataPresent = true ∧ 256 < s.inLen.toNat then .error .length
      else if s.keysOk = false then .error .crypto
      else if s.opt.dataPresent = true ∧ 112 ≤ s.inLen.toNat then .error .encoding
      else .ok { bytes := some (protectedCommand s) } := by
  rw [resultOf, prepareResult, runChecks_eq]
  simp only [keyed, readsIn, Config.inCap, true_and]
  split_ifs with hl hlen hk hd <;> simp only [error_bind, ok_bind]
  · rw [prepare_state_of_ge hd.1 hd.2, error_bind]
  · rw [prepare_state_of_le (fun hp => Nat.le_of_lt_succ (not_le.mp fun hge => hd ⟨hp, hge⟩)), ok_bind]

/-- Settles O43: each clause is one case of the result. -/
theorem prepareCommand : Obligations.PrepareCommand := by
  refine ⟨runsAs_encode .prepare, fun s => ⟨_, exec_eq .prepare s, fun hl => ?_, fun hl hp hlen => ?_, fun hl hlen hk => ?_,
    fun hl hk hp hge hle => ?_, fun hl hk hle => ?_⟩⟩
  · exact endsWithError_of_result (by rw [prepareResult_eq, if_pos hl])
  · exact endsWithError_of_result (by simp [prepareResult_eq, hl, hp, hlen])
  · rw [keysAccepted_iff, Bool.not_eq_true] at hk
    exact endsWithError_of_result (by simp [prepareResult_eq, hl, hlen, hk])
  · rw [keysAccepted_iff] at hk
    exact endsWithError_of_result (by simp [prepareResult_eq, hl, hk, hp, hge, Nat.not_lt.mpr hle])
  · rw [keysAccepted_iff] at hk
    have hlength : ¬(s.opt.dataPresent = true ∧ 256 < s.inLen.toNat) := fun ⟨hp, hlen⟩ => by have := hle hp; omega
    have hencoding : ¬(s.opt.dataPresent = true ∧ 112 ≤ s.inLen.toNat) := fun ⟨hp, hlen⟩ => by have := hle hp; omega
    exact endsWithBytes_of_result (by simp [prepareResult_eq, hl, hk, hlength, hencoding])

/-- R235: PREPARE succeeds only with data of at most 111 bytes, and then answers the command written out. -/
theorem prepareResult_eq_ok {s : State} {o : Outputs} (h : resultOf .prepare s = .ok o) :
    o = { bytes := some (protectedCommand s) } ∧ (s.opt.dataPresent = true → s.inLen.toNat ≤ 111) := by
  rw [prepareResult_eq] at h
  split_ifs at h with hl hlen hk hge
  cases h
  exact ⟨rfl, fun hp => Nat.le_of_lt_succ (not_le.mp fun hlen => hge ⟨hp, hlen⟩)⟩

/-- R275: a command that ends without an error has outputs. -/
theorem resultOf_ok_of_err_none {i : Instr} {s t : State} (ht : exec i s = .next t) (herr : t.status.err = none) :
    ∃ o, resultOf i s = .ok o ∧ t = s.succeed o := by
  rw [exec_eq] at ht
  cases ht
  cases hr : resultOf i s with
  | ok o => exact ⟨o, rfl, rfl⟩
  | error e => rw [hr] at herr; cases herr

/-- R235: a PREPARE without an error ends with the command written out. -/
theorem prepare_ends_of_err_none {s t : State} (ht : exec .prepare s = .next t) (herr : t.status.err = none) :
    EndsWithBytes s t (protectedCommand s) ∧ (s.opt.dataPresent = true → s.inLen.toNat ≤ 111) := by
  obtain ⟨o, hr, rfl⟩ := resultOf_ok_of_err_none ht herr
  obtain ⟨rfl, hle⟩ := prepareResult_eq_ok hr
  exact ⟨succeed_endsWithBytes s (result_fits hr rfl), hle⟩

/-- Settles O44: the length is that of the command written out, whose data objects are bounded. -/
theorem prepareOutputLength : Obligations.PrepareOutputLength := by
  intro s t ht herr
  obtain ⟨hend, hle⟩ := prepare_ends_of_err_none ht herr
  have hparts := length_commandParts_le hle
  rw [hend.outLen, length_protectedCommand]
  exact ⟨by rw [length_commandDo87, length_commandDo97], by omega⟩

/-! ### PREPARE as a function of its inputs -/

/-- R235, R237: past the checks of LOCKED and of the keys PREPARE computes a function of the keys, the counter, the header, the
data and le. -/
theorem prepareResult_of_keys {s : State} (hl : s.status.locked = false) (hk : KeysAccepted s) :
    resultOf .prepare s =
      if 256 < (s.data.getD []).length then .error .length
      else (prepare s.kenc s.kmac s.ssc s.header s.data s.le >>= fun r => .ok { bytes := some r }) := by
  have hlen : (s.opt.dataPresent = true ∧ 256 < s.inLen.toNat) ↔ 256 < (s.data.getD []).length := by
    cases hp : s.opt.dataPresent with
    | false => simp [State.data_of_absent hp]
    | true => simp [State.data_of_present hp]
  rw [keysAccepted_iff] at hk
  rw [resultOf, prepareResult, runChecks_eq]
  by_cases hlong : 256 < (s.data.getD []).length <;> simp [keyed, readsIn, Config.inCap, hl, hk, hlen, hlong]

/-- R237: PREPARE computes the same from states that agree on those. -/
theorem prepareResult_congr {s u : State} (hsl : s.status.locked = false) (hul : u.status.locked = false)
    (hsk : KeysAccepted s) (huk : KeysAccepted u) (hkenc : u.kenc = s.kenc) (hkmac : u.kmac = s.kmac)
    (hssc : u.ssc = s.ssc) (hhdr : u.hdr = s.hdr) (hdata : u.data = s.data) (hle : u.le = s.le) :
    resultOf .prepare u = resultOf .prepare s := by
  have hheader : u.header = s.header := congrArg lanes hhdr
  rw [prepareResult_of_keys hsl hsk, prepareResult_of_keys hul huk, hkenc, hkmac, hssc, hheader, hdata, hle]

theorem EndsWithBytes.read_out {s t : State} {bs : List Byte} (h : EndsWithBytes s t bs) {i : Nat} (hi : i < bs.length) :
    t.mem.read (Config.outBase + i) = byteAt bs i := by
  rw [h.mem, if_pos (by omega), Nat.add_sub_cancel_left]

/-- R275: states in which a command ends with the same bytes have the same OUT_LEN and OUT. -/
theorem EndsWithBytes.out_congr {s t u v : State} {bs : List Byte} (h : EndsWithBytes s t bs) (h' : EndsWithBytes u v bs) :
    v.outLen = t.outLen ∧ ∀ i, i < t.outLen.toNat → v.mem.read (Config.outBase + i) = t.mem.read (Config.outBase + i) := by
  refine ⟨BitVec.eq_of_toNat_eq (h'.outLen.trans h.outLen.symm), fun i hi => ?_⟩
  rw [h.outLen] at hi
  rw [h.read_out hi, h'.read_out hi]

/-- Settles O45: both states have the same result, and its completion leaves the same ERR and, with a byte string, the same
OUT. -/
theorem prepareIsDeterminedByItsInputs : Obligations.PrepareIsDeterminedByItsInputs := by
  intro s u t v hsl hul hsk huk hkenc hkmac hssc hhdr hdata hle ht hv
  have hres := prepareResult_congr hsl hul hsk huk hkenc hkmac hssc hhdr hdata hle
  rw [exec_eq] at ht hv
  cases ht
  cases hv
  cases hr : resultOf .prepare s with
  | error e =>
    rw [hr] at hres
    exact ⟨by rw [hres]; rfl, nofun⟩
  | ok o =>
    obtain ⟨rfl, -⟩ := prepareResult_eq_ok hr
    have hs := endsWithBytes_of_result hr
    have hu := endsWithBytes_of_result (hres.trans hr)
    rw [hr] at hs
    exact ⟨by rw [hres, hr]; rfl, fun _ => hs.out_congr hu⟩

/-! ### The parser -/

/-- R120: a DO87 of a response: none, or the tag, the length of what follows it, the indicator and a ciphertext. -/
def IsDo87 (do87 : List Byte) : Prop :=
  do87 = [] ∨ ∃ ct : List Byte, ct.length ≤ 126 ∧ do87 = [0x87, lenByte (1 + ct.length), 0x01] ++ ct

theorem toNat_lenByte {n : Nat} (h : n < 256) : (lenByte n).toNat = n := by
  rw [lenByte, BitVec.toNat_ofNat, Nat.mod_eq_of_lt h]

theorem lenByte_toNat (l : Byte) : lenByte l.toNat = l := BitVec.ofNat_toNat 8 l

/-- R243: a string that does not start with 0x87 has no DO87. -/
theorem parseDo87_of_head_ne {r : List Byte} (h : byteAt r 0 ≠ 0x87) : parseDo87 r = .ok ([], 0) := by
  rw [parseDo87, if_neg fun ⟨_, h'⟩ => h h']

theorem parseDo87_singleton : parseDo87 [0x87] = .error .auth := rfl

/-- R243: a DO87 of length l takes the l bytes after the length byte, the first of them the indicator. -/
theorem parseDo87_cons (l : Byte) (rest : List Byte) :
    parseDo87 (0x87 :: l :: rest) =
      if (1 ≤ l.toNat ∧ l.toNat ≤ 0x7F ∧ l.toNat ≤ rest.length) ∧ byteAt rest 0 = 0x01 then
        .ok (0x87 :: l :: rest.take l.toNat, 2 + l.toNat)
      else .error .auth := by
  have hfits : 2 + l.toNat ≤ (0x87 :: l :: rest).length ↔ l.toNat ≤ rest.length := by
    simp only [List.length_cons]; omega
  have hslice : slice (0x87 :: l :: rest) 0 (2 + l.toNat) = 0x87 :: l :: rest.take l.toNat := by
    simp [slice, Nat.add_comm 2]
  have hind : byteAt (0x87 :: l :: rest) 2 = byteAt rest 0 := rfl
  have hlen : byteAt (0x87 :: l :: rest) 1 = l := rfl
  rw [parseDo87, if_pos ⟨by simp, rfl⟩, check_decide_pos (by simp), ok_bind, hlen]
  simp only [check_bind, hslice, hind, hfits, Bool.and_eq_true, decide_eq_true_eq, beq_iff_eq, Config.do87Indicator, ite_and]

/-- R120: a DO87 that the length byte l and the l bytes of a string make up. -/
theorem isDo87_cons {l : Byte} {rest : List Byte} (h1 : 1 ≤ l.toNat) (h2 : l.toNat ≤ 0x7F) (h3 : l.toNat ≤ rest.length)
    (h4 : byteAt rest 0 = 0x01) : IsDo87 (0x87 :: l :: rest.take l.toNat) := by
  cases rest with
  | nil => cases h4
  | cons b ct =>
    obtain ⟨n, hn⟩ : ∃ n, l.toNat = n + 1 := ⟨l.toNat - 1, by omega⟩
    have hb : b = 0x01 := h4
    have hct : (ct.take n).length = n := by rw [List.length_take]; simp at h3; omega
    refine .inr ⟨ct.take n, by omega, ?_⟩
    rw [hct, Nat.add_comm 1, ← hn, lenByte_toNat, hb, hn, List.take_succ_cons]
    rfl

/-- R243: what the first part of the parse answers is a DO87 at the start of the response. -/
theorem isDo87_of_parseDo87 {r do87 : List Byte} {i : Nat} (h : parseDo87 r = .ok (do87, i)) :
    IsDo87 do87 ∧ do87 ++ r.drop i = r := by
  by_cases hhead : byteAt r 0 = 0x87
  · match r with
    | [] => cases hhead
    | [b] =>
      obtain rfl : b = 0x87 := hhead
      rw [parseDo87_singleton] at h
      cases h
    | b :: l :: rest =>
      obtain rfl : b = 0x87 := hhead
      rw [parseDo87_cons] at h
      split_ifs at h with hc
      obtain ⟨⟨h1, h2, h3⟩, h4⟩ := hc
      cases h
      exact ⟨isDo87_cons h1 h2 h3 h4, by simp [Nat.add_comm 2]⟩
  · rw [parseDo87_of_head_ne hhead] at h
    cases h
    exact ⟨.inl rfl, rfl⟩

/-- R243: a DO87 at the start of a response that goes on with another tag is found. -/
theorem parseDo87_append {do87 : List Byte} (h : IsDo87 do87) {rest : List Byte} (hrest : byteAt rest 0 ≠ 0x87) :
    parseDo87 (do87 ++ rest) = .ok (do87, do87.length) := by
  obtain rfl | ⟨ct, hct, rfl⟩ := h
  · exact parseDo87_of_head_ne hrest
  · have hl : (lenByte (1 + ct.length)).toNat = ct.length + 1 := by rw [toNat_lenByte (by omega), Nat.add_comm]
    have hshape : [0x87, lenByte (1 + ct.length), 0x01] ++ ct ++ rest =
        0x87 :: lenByte (1 + ct.length) :: (0x01 :: (ct ++ rest)) := rfl
    rw [hshape, parseDo87_cons, hl, if_pos ⟨⟨by omega, by omega, by simp⟩, rfl⟩]
    simp [Nat.add_comm 2]

/-- R243: the first part of the parse raises nothing but AUTH. -/
theorem parseDo87_error {r : List Byte} {e : ErrCode} (h : parseDo87 r = .error e) : e = .auth := by
  simp only [parseDo87, check_bind] at h
  split_ifs at h <;> cases h <;> rfl

theorem byteAt_drop (r : List Byte) (i j : Nat) : byteAt (r.drop i) j = byteAt r (i + j) := by
  simp [byteAt]

theorem slice_add (r : List Byte) (i a b : Nat) : slice r (i + a) (i + b) = slice (r.drop i) a b := by
  rw [slice, slice, List.drop_drop, Nat.add_sub_add_left]

/-- R243: what follows the DO87 of a response: DO99 with SW1 SW2, then DO8E, and nothing more. -/
def trailer (sw1 sw2 : Byte) (tag : List Byte) : List Byte := [0x99, 0x02, sw1, sw2] ++ ([0x8E, 0x08] ++ tag)

/-- R243: the bytes the parse checks in the rest of a response after its DO87. -/
def IsTrailer (t : List Byte) : Prop :=
  t.length = 14 ∧ byteAt t 0 = 0x99 ∧ byteAt t 1 = 0x02 ∧ byteAt t 4 = 0x8E ∧ byteAt t 5 = 0x08

/-- R243: they are those of DO99 and DO8E. -/
theorem eq_trailer_of_isTrailer {t : List Byte} (h : IsTrailer t) :
    t = trailer (byteAt t 2) (byteAt t 3) (slice t 6 14) ∧ slice t 0 4 = [0x99, 0x02, byteAt t 2, byteAt t 3] ∧
      (slice t 6 14).length = 8 := by
  obtain ⟨hlen, h0, h1, h4, h5⟩ := h
  match t with
  | a :: b :: c :: d :: e :: f :: tag =>
    obtain rfl : a = 0x99 := h0
    obtain rfl : b = 0x02 := h1
    obtain rfl : e = 0x8E := h4
    obtain rfl : f = 0x08 := h5
    have htag : tag.length = 8 := by simpa using hlen
    have hslice : slice (0x99 :: 0x02 :: c :: d :: 0x8E :: 0x08 :: tag) 6 14 = tag := by
      rw [slice, List.drop_succ_cons]
      simp [htag]
    rw [hslice]
    exact ⟨rfl, rfl, htag⟩

theorem isTrailer_trailer (sw1 sw2 : Byte) {tag : List Byte} (h : tag.length = 8) : IsTrailer (trailer sw1 sw2 tag) :=
  ⟨by simp [trailer, h], rfl, rfl, rfl, rfl⟩

/-- R243: the second part of the parse accepts DO99 and DO8E after DO87 and nothing else. -/
theorem parseResponse_of_parseDo87 {r do87 : List Byte} {i : Nat} (h : parseDo87 r = .ok (do87, i)) :
    (IsTrailer (r.drop i) → parseResponse r = .ok (do87, slice (r.drop i) 0 4, slice (r.drop i) 6 14)) ∧
      (¬IsTrailer (r.drop i) → parseResponse r = .error .auth) := by
  have hchecks : IsTrailer (r.drop i) ↔
      (((i + 4 ≤ r.length ∧ byteAt r i = 0x99) ∧ byteAt r (i + 1) = 0x02) ∧
        (i + 14 = r.length ∧ byteAt r (i + 4) = 0x8E) ∧ byteAt r (i + 5) = 0x08) := by
    have hlen : (r.drop i).length = 14 ↔ i + 14 = r.length := by rw [List.length_drop]; omega
    have hlen' : i + 14 = r.length → i + 4 ≤ r.length := by omega
    rw [IsTrailer, hlen]
    simp only [byteAt_drop, Nat.add_zero]
    tauto
  simp only [← slice_add, parseResponse, h, ok_bind, check_bind, Nat.add_assoc, Bool.and_eq_true, decide_eq_true_eq,
    beq_iff_eq, hchecks]
  refine ⟨fun ⟨h99, h8e⟩ => by rw [if_pos h99, if_pos h8e]; rfl, fun hnot => ?_⟩
  split_ifs with h99 h8e
  · exact absurd ⟨h99, h8e⟩ hnot
  · rfl
  · rfl

/-- R120, R243: the parse answers exactly the parts of a response. -/
theorem parseResponse_eq_ok_iff (r do87 do99 tag : List Byte) :
    parseResponse r = .ok (do87, do99, tag) ↔ IsResponse r do87 do99 tag := by
  constructor
  · intro h
    cases hp : parseDo87 r with
    | error e => rw [parseResponse, hp] at h; cases h
    | ok v =>
      obtain ⟨d, i⟩ := v
      obtain ⟨hyes, hno⟩ := parseResponse_of_parseDo87 hp
      obtain ⟨hd, hr⟩ := isDo87_of_parseDo87 hp
      by_cases ht : IsTrailer (r.drop i)
      · rw [hyes ht] at h
        cases h
        obtain ⟨htrailer, h99, htag⟩ := eq_trailer_of_isTrailer ht
        refine ⟨?_, htag, ⟨_, _, h99⟩, hd⟩
        rw [h99, List.append_assoc]
        exact hr.symm.trans (congrArg (do87 ++ ·) htrailer)
      · rw [hno ht] at h
        cases h
  · rintro ⟨rfl, htag, ⟨sw1, sw2, rfl⟩, hd⟩
    have hp := parseDo87_append hd (rest := trailer sw1 sw2 tag) (show (0x99 : Byte) ≠ 0x87 by decide)
    have ht := isTrailer_trailer sw1 sw2 htag
    obtain ⟨hyes, -⟩ := parseResponse_of_parseDo87 hp
    rw [List.drop_left] at hyes
    have hslice : slice (trailer sw1 sw2 tag) 6 14 = tag := by simp [slice, trailer, htag]
    rw [List.append_assoc]
    exact (hyes ht).trans (by rw [hslice]; rfl)

/-- R243: the parse raises nothing but AUTH. -/
theorem parseResponse_error {r : List Byte} {e : ErrCode} (h : parseResponse r = .error e) : e = .auth := by
  cases hp : parseDo87 r with
  | error e' =>
    rw [parseResponse, hp] at h
    cases h
    exact parseDo87_error hp
  | ok v =>
    obtain ⟨do87, i⟩ := v
    obtain ⟨hyes, hno⟩ := parseResponse_of_parseDo87 hp
    by_cases ht : IsTrailer (r.drop i)
    · rw [hyes ht] at h; cases h
    · rw [hno ht] at h; cases h; rfl

/-- R243: a string that is no response raises AUTH. -/
theorem parseResponse_of_not_response {r : List Byte} (h : ¬∃ do87 do99 tag, IsResponse r do87 do99 tag) :
    parseResponse r = .error .auth := by
  cases hp : parseResponse r with
  | ok v =>
    obtain ⟨do87, do99, tag⟩ := v
    exact absurd ⟨do87, do99, tag, (parseResponse_eq_ok_iff r _ _ _).mp hp⟩ h
  | error e => rw [parseResponse_error hp]

/-- Settles O46: the parse answers the parts of a response, and AUTH where there are none. -/
theorem parserAcceptsExactlyTheGrammar : Obligations.ParserAcceptsExactlyTheGrammar :=
  fun r => ⟨parseResponse_eq_ok_iff r, parseResponse_of_not_response⟩

/-! ### UNWRAP -/

/-- R277: a command whose result is a plaintext, a status and the mark of a DO87 ends with them. -/
theorem endsWithPlain_of_result {i : Instr} {s : State} {bs : List Byte} {sw : BitVec 16} {seen : Bool}
    (h : resultOf i s = .ok { bytes := some bs, sw := some sw, do87Seen := some seen }) :
    EndsWithPlain s (s.complete (resultOf i s)) bs sw seen := by
  have hfits := result_fits h rfl
  rw [h]
  exact succeed_endsWithPlain s sw seen hfits

/-- R245: past the shared checks UNWRAP of a string that is no response raises AUTH. -/
theorem unwrapResult_of_not_response {s : State} (h : ReadyWithInput s)
    (hr : ¬∃ do87 do99 tag, IsResponse s.inBytes do87 do99 tag) : resultOf .unwrap s = .error .auth := by
  rw [resultOf, unwrapResult, runChecks_of_ready h, ok_bind, parseResponse_of_not_response hr, error_bind]

/-- R245: UNWRAP of a response decrypts once the MAC is the tag. -/
theorem unwrapResult_of_response {s : State} (h : ReadyWithInput s) {do87 tag : List Byte} {sw1 sw2 : Byte}
    (hr : IsResponse s.inBytes do87 [0x99, 0x02, sw1, sw2] tag) :
    resultOf .unwrap s =
      if mac s.kmac (be 16 s.ssc.toNat ++ do87 ++ [0x99, 0x02, sw1, sw2]) = tag then
        (do87Plain s.kenc s.ssc do87 >>= fun d =>
          .ok { bytes := some d, sw := some (sw1 ++ sw2), do87Seen := some (do87 != []) })
      else .error .auth := by
  rw [resultOf, unwrapResult, runChecks_of_ready h, ok_bind, (parseResponse_eq_ok_iff _ _ _ _).mpr hr, ok_bind]
  simp only [check_bind, verifyMac_eq_decide, decide_eq_true_eq]
  rfl

theorem do87Plain_nil (k : List Byte) (ssc : BitVec 64) : do87Plain k ssc [] = .ok [] := rfl

/-- R245: the value of a DO87 after the indicator is the ciphertext. -/
theorem do87Plain_of_ciphertext (k : List Byte) (ssc : BitVec 64) (l : Byte) (ct : List Byte) :
    do87Plain k ssc ([0x87, l, 0x01] ++ ct) = decData k ssc ct := by
  have hslice : slice ([0x87, l, 0x01] ++ ct) 3 ([0x87, l, 0x01] ++ ct).length = ct := by simp [slice]
  rw [do87Plain, if_pos (by simp), hslice]

section
variable {s : State} {do87 tag : List Byte} {sw1 sw2 : Byte}

theorem unwrap_ends_of_mac_ne (h : ReadyWithInput s) (hr : IsResponse s.inBytes do87 [0x99, 0x02, sw1, sw2] tag)
    (hmac : mac s.kmac (be 16 s.ssc.toNat ++ do87 ++ [0x99, 0x02, sw1, sw2]) ≠ tag) :
    EndsWithError s (s.complete (resultOf .unwrap s)) .auth :=
  endsWithError_of_result (by rw [unwrapResult_of_response h hr, if_neg hmac])

theorem unwrap_ends_of_error (h : ReadyWithInput s) (hr : IsResponse s.inBytes do87 [0x99, 0x02, sw1, sw2] tag)
    (hmac : mac s.kmac (be 16 s.ssc.toNat ++ do87 ++ [0x99, 0x02, sw1, sw2]) = tag) {e : ErrCode}
    (hd : do87Plain s.kenc s.ssc do87 = .error e) : EndsWithError s (s.complete (resultOf .unwrap s)) e :=
  endsWithError_of_result (by rw [unwrapResult_of_response h hr, if_pos hmac, hd, error_bind])

theorem unwrap_ends_of_ok (h : ReadyWithInput s) (hr : IsResponse s.inBytes do87 [0x99, 0x02, sw1, sw2] tag)
    (hmac : mac s.kmac (be 16 s.ssc.toNat ++ do87 ++ [0x99, 0x02, sw1, sw2]) = tag) {d : List Byte}
    (hd : do87Plain s.kenc s.ssc do87 = .ok d) :
    EndsWithPlain s (s.complete (resultOf .unwrap s)) d (sw1 ++ sw2) (do87 != []) :=
  endsWithPlain_of_result (by rw [unwrapResult_of_response h hr, if_pos hmac, hd, ok_bind])

end

/-- Settles O47: the parse, the MAC, the length of the ciphertext and its padding decide in this order. -/
theorem unwrapCommand : Obligations.UnwrapCommand := by
  refine ⟨runsAs_encode .unwrap, fun s => ⟨_, exec_eq .unwrap s, sharedErrors_of_keyed rfl rfl, fun h =>
    ⟨fun hnot => endsWithError_of_result (unwrapResult_of_not_response h hnot), fun do87 tag sw1 sw2 hr =>
      ⟨unwrap_ends_of_mac_ne h hr, fun hmac => ⟨?_, ?_⟩⟩⟩⟩⟩
  · rintro rfl
    exact unwrap_ends_of_ok h hr hmac (do87Plain_nil _ _)
  · rintro ct rfl
    have hplain := do87Plain_of_ciphertext s.kenc s.ssc (lenByte (1 + ct.length)) ct
    refine ⟨fun hlen => unwrap_ends_of_error h hr hmac (hplain.trans (decData_of_not_blocks _ _ hlen)), fun hpos hmod => ?_⟩
    rw [decData_of_blocks _ _ hpos hmod, deriveIv, ivBlock] at hplain
    refine ⟨fun hnone => unwrap_ends_of_error h hr hmac ?_, fun d hsome => unwrap_ends_of_ok h hr hmac ?_⟩
    · rw [hplain, hnone, Option.elim_none]
    · rw [hplain, hsome, Option.elim_some]

/-- R246: what the card side builds around at most 111 bytes is a response. -/
theorem isResponse_cardResponse (s : State) {d : List Byte} (h : d.length ≤ 111) (sw1 sw2 : Byte) :
    IsResponse (cardResponse s d sw1 sw2) (cardDo87 s d) [0x99, 0x02, sw1, sw2]
      (mac s.kmac (be 16 s.ssc.toNat ++ cardDo87 s d ++ [0x99, 0x02, sw1, sw2])) := by
  have hct := length_encData s.kenc s.ssc d
  exact ⟨rfl, length_mac_eq _ _, ⟨sw1, sw2, rfl⟩, .inr ⟨_, by omega, rfl⟩⟩

/-- Settles O48: the MAC of the response is its tag, and DecData undoes EncData. -/
theorem unwrapOpensCardResponses : Obligations.UnwrapOpensCardResponses := by
  intro s d sw1 sw2 h hd hin
  have hr := isResponse_cardResponse s hd sw1 sw2
  rw [← hin] at hr
  exact ⟨_, exec_eq .unwrap s, unwrap_ends_of_ok h hr rfl
    ((do87Plain_of_ciphertext _ _ _ _).trans (decData_encData s.kenc s.ssc d))⟩

end Sys2Proof.Machine

/-! Issue and completion (O5, O17 to O20). A completion's effects are read off its result: it keeps the inputs and every byte
outside OUT_BUF, where the result fits, and with an error it writes STATUS alone. The checks shared by the commands decide its
error first. -/

namespace Sys2Proof.Machine

/-- Settles O5: whichever kind of step it is, there is a next state. -/
theorem stepNeverStops : Obligations.StepNeverStops := exists_step_eq_next

/-! ### The issue -/

/-- Settles O17: a CMD write while BUSY = 0 is the issue, and while BUSY = 1 a lost write. -/
theorem cmdWriteIssues : Obligations.CmdWriteIssues := by
  refine fun s v => ⟨fun hidle => ?_, fun hbusy => ?_⟩
  · rw [perform_wr_cmd_of_idle hidle]
    exact ⟨rfl, rfl, Memory.read_clear s.mem _ _, rfl, rfl, rfl, rfl, rfl, rfl, rfl, rfl, rfl, rfl, rfl, rfl⟩
  · rw [perform_wr_eq, writeReg_lost hbusy (by decide) (by decide), Status.writeLost]

/-! ### What a completion changes -/

/-- R275, R278: STATUS after a completion, with the error it shows. -/
theorem complete_statusAfter (s : State) (r : Except ErrCode Outputs) :
    StatusAfter s (s.complete r) (s.complete r).status.err := by
  cases r with
  | ok o => exact succeed_status s o
  | error e => exact (fail_endsWithError s e).status

/-- R276, R277: a completion that shows an error changed STATUS alone. -/
theorem complete_endsWithError {s : State} {r : Except ErrCode Outputs} {e : ErrCode}
    (h : (s.complete r).status.err = some e) : EndsWithError s (s.complete r) e := by
  cases r with
  | ok o => cases h
  | error e' =>
    cases h
    exact fail_endsWithError s e

/-- R276: a completion whose byte string fits OUT_BUF writes no byte outside it. -/
theorem read_complete_of_not_out {s : State} {r : Except ErrCode Outputs} {a : Nat}
    (hfits : ∀ o bs, r = .ok o → o.bytes = some bs → bs.length ≤ Config.outCap) (ha : ¬outOffset a) :
    (s.complete r).mem.read a = s.mem.read a := by
  cases r with
  | error e => rfl
  | ok o =>
    rw [State.complete_ok, State.succeed_mem]
    cases hb : o.bytes with
    | none => rfl
    | some bs =>
      have hlen := hfits o bs rfl hb
      rw [read_writeOut, if_neg (by omega)]

/-- Settles O18: each part is read off the result, which fits OUT_BUF. -/
theorem everyCommandCompletesAndKeepsItsInputs : Obligations.EveryCommandCompletesAndKeepsItsInputs :=
  fun i s => ⟨_, exec_eq i s, complete_inputsKept s _, complete_statusAfter s _,
    fun _ => read_complete_of_not_out fun _ _ => result_fits, fun _ => complete_endsWithError⟩

/-- Settles O19: the completion keeps the invariant, which has the outputs clear after an error. -/
theorem errorsLeaveNoOutput : Obligations.ErrorsLeaveNoOutput := by
  intro s t hdue hstep
  rw [step_of_engineDue hdue] at hstep
  cases hstep
  exact ⟨fun hinv => (hinv.completion (busy_of_engineDue hdue)).errClear, complete_inputsKept s _,
    fun _ => read_complete_of_not_out fun _ _ => engineResult_fits⟩

/-! ### The shared checks -/

/-- R113: PAD is the one command that is not keyed. -/
theorem keyed_iff (i : Instr) : keyed i = true ↔ i ≠ .pad := by
  cases i <;> decide

/-- R272: the commands that read IN, in the words of Safety.lean. -/
theorem readsIn_iff (i : Instr) (s : State) : readsIn s i = true ↔ ReadsInput i s := by
  cases i <;> simp [readsIn, ReadsInput]

/-- R272: a command that fails a shared check ends with its error. -/
theorem endsWithError_of_checks {i : Instr} {s : State} {e : ErrCode} (h : runChecks i s = .error e) :
    EndsWithError s (s.complete (resultOf i s)) e :=
  endsWithError_of_result (resultOf_error_of_checks h)

section
variable {i : Instr} {s : State}

/-- R272, step 2. -/
theorem runChecks_of_locked (hi : i ≠ .pad) (hl : s.status.locked = true) : runChecks i s = .error .locked := by
  rw [runChecks_eq, if_pos ⟨(keyed_iff i).mpr hi, hl⟩]

/-- R272, step 3. -/
theorem runChecks_of_length (hl : ¬(i ≠ .pad ∧ s.status.locked = true)) (hr : ReadsInput i s)
    (hn : 256 < s.inLen.toNat) : runChecks i s = .error .length := by
  rw [← keyed_iff] at hl
  rw [runChecks_eq, if_neg hl, if_pos ⟨(readsIn_iff i s).mpr hr, hn⟩]

/-- R161, R272: the key check after the prelude. -/
theorem runChecks_of_keys (hi : i ≠ .pad) (hl : s.status.locked = false) (hn : ¬(ReadsInput i s ∧ 256 < s.inLen.toNat))
    (hk : ¬KeysAccepted s) : runChecks i s = .error .crypto := by
  rw [← readsIn_iff] at hn
  rw [keysAccepted_iff, Bool.not_eq_true] at hk
  rw [runChecks_eq, if_neg (by simp [hl]), Config.inCap, if_neg hn, if_pos ⟨(keyed_iff i).mpr hi, hk⟩]

end

/-- Settles O20: the illegal word is no command, and each later clause is one case of the shared checks. -/
theorem commonPreludeComesFirst : Obligations.CommonPreludeComesFirst :=
  ⟨fun s hdue hw => ⟨_, step_of_illegalWord hdue hw, fail_endsWithError s .illegalCmd⟩,
    fun i s => ⟨_, exec_eq i s, fun hi hl => endsWithError_of_checks (runChecks_of_locked hi hl),
      fun hl hr hn => endsWithError_of_checks (runChecks_of_length hl hr hn),
      fun hi hl hn hk => endsWithError_of_checks (runChecks_of_keys hi hl hn hk)⟩⟩

end Sys2Proof.Machine

/-! Lock and interrupt (O49 to O51). A completion only adds to LOCKED and an input other than a reset keeps it; IRQ depends on
IE and DONE alone. -/

namespace Sys2Proof.Machine

/-! ### LOCKED -/

/-- R278: no completion clears LOCKED. -/
theorem StatusAfter.locked_of_locked {s t : State} {e : Option ErrCode} (h : StatusAfter s t e)
    (hl : s.status.locked = true) : t.status.locked = true := by
  obtain ⟨-, -, -, -, hlocked⟩ := h
  rw [hlocked, hl, Bool.true_or]

/-- R278: a completion with AUTH latches LOCKED. -/
theorem StatusAfter.locked_of_auth {s t : State} (h : StatusAfter s t (some .auth)) : t.status.locked = true := by
  obtain ⟨-, -, -, -, hlocked⟩ := h
  rw [hlocked, beq_self_eq_true, Bool.or_true]

/-- R278: a step that clears LOCKED performs a reset. -/
theorem step_unlocks {s t : State} (h : step s = .next t) (hs : s.status.locked = true) (ht : t.status.locked = false) :
    s.engineDue = false ∧ ∃ i rest, s.pending = i :: rest ∧ isReset i = true := by
  rcases step_cases h with ⟨-, he⟩ | ⟨-, -, rfl⟩ | ⟨hdue, i, rest, hp, rfl⟩
  · rw [engineStep_eq_engineResult] at he
    cases he
    have hlocked := (complete_statusAfter s (engineResult s)).locked_of_locked hs
    exact absurd ht (by rw [hlocked]; decide)
  · exact absurd ht (by rw [hs]; decide)
  · refine ⟨hdue, i, rest, hp, ?_⟩
    by_contra hi
    rw [perform_locked (Bool.eq_false_of_not_eq_true hi), State.takeInput_status, hs] at ht
    cases ht

/-- Settles O49: the completion latches LOCKED on AUTH, and a step that clears it performs a reset. -/
theorem onlyResetClearsLocked : Obligations.OnlyResetClearsLocked := by
  refine fun s t hstep => ⟨fun hdue hauth => ?_, step_unlocks hstep⟩
  rw [step_of_engineDue hdue] at hstep
  cases hstep
  have hst := complete_statusAfter s (engineResult s)
  rw [hauth] at hst
  exact hst.locked_of_auth

/-- Settles O50: LOCKED is the first check of a keyed command and none of PAD's, and the write gate does not look at it. -/
theorem lockedRefusesKeyedCommands : Obligations.LockedRefusesKeyedCommands := by
  refine fun s hl => ⟨fun i hi => ?_, fun hlen => ?_, fun hidle => writeReg_idle hidle⟩
  · have hend := endsWithError_of_checks (runChecks_of_locked hi hl)
    exact ⟨_, exec_eq i s, hend, hend.status.locked_of_locked hl⟩
  · have hend := succeed_endsWithBytes s ((length_pad_inBytes_le_iff s).mpr hlen)
    exact ⟨_, exec_pad_of_le hlen, hend, hend.status.locked_of_locked hl⟩

/-! ### IRQ -/

/-- R285: IRQ depends on IE and DONE alone. -/
theorem irq_congr {s t : State} (hie : t.ctrl = s.ctrl) (hdone : t.status.done = s.status.done) : t.irq = s.irq := by
  rw [State.irq, State.irq, hie, hdone]

theorem irq_of_not_done {s : State} (h : s.status.done = false) : s.irq = false := by
  rw [State.irq, h, Bool.and_false]

theorem irq_of_not_ie {s : State} (h : s.ctrl.ie = false) : s.irq = false := by
  rw [State.irq, h, Bool.false_and]

theorem irq_respond (s : State) (r : BusResponse) : (s.respond r).irq = s.irq := irq_congr rfl rfl

/-- R275, R285: a completion raises IRQ where it is enabled. -/
theorem irq_complete (s : State) (r : Except ErrCode Outputs) : (s.complete r).irq = s.ctrl.ie := by
  rw [State.irq, complete_done, (complete_inputsKept s r).ctrl, Bool.and_true]

theorem perform_wr_ctrl_srst {v : Word} (h : v.getLsbD 0 = true) (s : State) :
    s.perform (wr .ctrl v) = s.resetAll.respond .written := by
  rw [perform_wr, writeReg_ctrl, applyWrite_ctrl_srst h]

theorem perform_wr_ctrl_ie {v : Word} (h : v.getLsbD 0 = false) (s : State) :
    s.perform (wr .ctrl v) = State.respond { s with ctrl := { ie := v.getLsbD 1 } } .written := by
  rw [perform_wr, writeReg_ctrl, applyWrite_ctrl_ie h]

theorem perform_wr_status (s : State) (v : Word) :
    s.perform (wr .status v) = State.respond { s with status := s.status.acknowledged v } .written := by
  rw [perform_wr, writeReg_status, State.applyWrite]

/-- Settles O51: an acknowledgement, an issue and a reset clear DONE, a CTRL write of 0 clears IE and keeps DONE, and a
completion sets DONE; the rest leaves both alone. -/
theorem interruptIsEnableAndDone : Obligations.InterruptIsEnableAndDone := by
  refine fun s => ⟨rfl, fun i t ht => ?_, fun v hv => ?_, fun v hidle => ?_, irq_of_not_done rfl, ?_, ?_,
    fun b => ⟨irq_congr rfl rfl, irq_congr rfl rfl⟩, fun width off v hrej => ⟨?_, ?_⟩⟩
  · rw [exec_eq] at ht
    cases ht
    exact irq_complete s _
  · rw [perform_wr_status]
    exact irq_of_not_done (by rw [State.respond_status, Status.acknowledged_done, hv, Bool.not_true, Bool.and_false])
  · rw [perform_wr_cmd_of_idle hidle]
    exact irq_of_not_done rfl
  · rw [perform_wr_ctrl_srst (by decide)]
    exact irq_of_not_done rfl
  · rw [perform_wr_ctrl_ie (by decide)]
    exact ⟨irq_of_not_ie rfl, rfl⟩
  · rw [perform_read_rejected hrej, irq_respond]
  · rw [perform_write_rejected hrej, irq_respond]

end Sys2Proof.Machine


/-! Reset, boot and the life of the outputs (O52 to O55, O59). The reset input and a CTRL write with SRST = 1 make one state;
wrbytes writes its string to memory as it stands, so the boot writes leave a state that can be written down; and outside a
completion only an issue and a reset touch the outputs. -/

namespace Sys2Proof.Machine

/-! ### The resets -/

/-- R82: every word of the memory that lists nothing is 0. -/
theorem readWord_nil (a : Nat) : Memory.readWord [] a = 0 := by
  simp only [readWord_eq, Memory.read_nil]
  decide

/-- R55, R310: what the registers read after a reset. -/
theorem readReg_resetAll (s : State) (r : Reg) :
    s.resetAll.readReg r = if r = .id then 0x534D0100 else 0x00000000 := by
  cases r with
  | kcfg => exact (by decide : State.reset.kcfg.word = 0)
  | opt => exact (by decide : State.reset.opt.word = 0)
  | inBuf j => exact readWord_nil _
  | outBuf j => exact readWord_nil _
  | _ => rfl

/-- Settles O52: the reset input is `State.resetAll`, the reset state but for the model's own fields. -/
theorem resetClearsEverything : Obligations.ResetClearsEverything :=
  fun s => ⟨readReg_resetAll s, Memory.read_nil, rfl, (by decide : State.reset.ssc = 0), rfl, rfl, rfl, rfl,
    irq_of_not_ie rfl, rfl⟩

/-- Settles O53: with SRST = 1 the write is the reset and its response, with SRST = 0 it is a write of IE. -/
theorem softResetIsTheReset : Obligations.SoftResetIsTheReset := by
  refine fun s v => ⟨fun hv => ?_, perform_wr_ctrl_ie (s := s)⟩
  rw [perform_wr_ctrl_srst hv]
  exact ⟨rfl, readReg_resetAll s .ctrl, rfl, irq_of_not_ie rfl, Memory.read_nil⟩

/-- R161: the key lengths as a reset leaves them are not accepted. -/
theorem not_keysAccepted_of_kcfg_zero {s : State} (h : s.kcfg = { kencLen := 0, kmacLen := 0 }) : ¬KeysAccepted s := by
  rw [KeysAccepted, h]
  decide

/-- Settles O54: with KCFG = 0 the key check fails, and PAD, which is not keyed, pads the empty string. -/
theorem afterResetOnlyPadWorks : Obligations.AfterResetOnlyPadWorks := by
  refine ⟨step_of_no_input rfl rfl, rfl, rfl, rfl, fun i s hi hkcfg hlocked hlen => ⟨_, exec_eq i s, ?_⟩, ?_⟩
  · have hinput : ¬(ReadsInput i s ∧ 256 < s.inLen.toNat) := fun ⟨_, hgt⟩ => absurd hgt (by omega)
    exact endsWithError_of_checks (runChecks_of_keys hi hlocked hinput (not_keysAccepted_of_kcfg_zero hkcfg))
  · exact ⟨_, exec_pad_of_le (by decide), succeed_endsWithBytes State.reset (by decide)⟩

/-! ### Byte strings in memory -/

/-- R81: the lanes of a word made from a byte string are its first four bytes. -/
theorem lanes_ofLanes (b0 b1 b2 b3 : Byte) (rest : List Byte) :
    lanes (ofLanes (b0 :: b1 :: b2 :: b3 :: rest)) = [b0, b1, b2, b3] := by
  have h (i : Fin 4) : lane (ofLanes (b0 :: b1 :: b2 :: b3 :: rest)) i.val = [b0, b1, b2, b3].getD i.val 0 :=
    ofLanes_byte b0 b1 b2 b3 i
  simp only [lanes, List.cons.injEq, and_true]
  exact ⟨h 0, h 1, h 2, h 3⟩

/-- R81, R82: a byte string is written as the word of its first four bytes and then the rest. -/
theorem writeBytes_eq_writeWord {h : List Byte} (hlen : 4 ≤ h.length) (m : Memory) (a : Nat) :
    m.writeBytes a h = (m.writeWord a (ofLanes h)).writeBytes (a + 4) (h.drop 4) := by
  match h, hlen with
  | b0 :: b1 :: b2 :: b3 :: rest, _ => rw [Memory.writeWord, lanes_ofLanes]; rfl

/-- A byte string reads back from where it was written. -/
theorem readBytes_writeBytes_same (m : Memory) (a : Nat) (bs : List Byte) :
    (m.writeBytes a bs).readBytes a bs.length = bs := by
  refine List.ext_getElem (Memory.length_readBytes _ _ _) fun i hi hi' => ?_
  simp [Memory.readBytes, Memory.read_writeBytes, hi']

/-- A byte string written elsewhere leaves a range alone. -/
theorem readBytes_writeBytes_of_disjoint (m : Memory) {a b n : Nat} {bs : List Byte}
    (h : a + n ≤ b ∨ b + bs.length ≤ a) : (m.writeBytes b bs).readBytes a n = m.readBytes a n :=
  Memory.readBytes_congr fun i hi => by rw [Memory.read_writeBytes, if_neg (by omega)]

/-! ### The boot writes -/

/-- R86: an accepted write while BUSY = 0. -/
theorem perform_wr_of_idle {s : State} (h : s.status.busy = false) (r : Reg) (v : Word) :
    s.perform (wr r v) = { s.applyWrite r v with responses := s.responses ++ [.written] } := by
  rw [perform_wr_eq, writeReg_idle h]

/-- R46, R47: every word offset from 0x040 up to 0x080 is that of a key word. -/
theorem exists_keyReg {a : Nat} (hmod : a % 4 = 0) (hlo : 0x040 ≤ a) (hhi : a < 0x080) :
    ∃ r, HostBuffer r ∧ (offsetOf r).toNat = a := by
  by_cases h : a < 0x060
  · refine ⟨.kenc ⟨(a - 0x040) / 4, by omega⟩, .inr (.inl ⟨_, rfl⟩), ?_⟩
    rw [toNat_offsetOf_kenc, Config.kencBase]; simp only; omega
  · refine ⟨.kmac ⟨(a - 0x060) / 4, by omega⟩, .inr (.inr ⟨_, rfl⟩), ?_⟩
    rw [toNat_offsetOf_kmac, Config.kmacBase]; simp only; omega

/-- R82: a write to a key word while BUSY = 0. -/
theorem perform_write_keyWord {s : State} (h : s.status.busy = false) {a : Nat} (hmod : a % 4 = 0) (hlo : 0x040 ≤ a)
    (hhi : a < 0x080) (v : Word) :
    s.perform (.write .word (BitVec.ofNat 12 a) v) =
      { s with mem := s.mem.writeWord a v, responses := s.responses ++ [.written] } := by
  obtain ⟨r, hr, rfl⟩ := exists_keyReg hmod hlo hhi
  rw [BitVec.ofNat_toNat, BitVec.setWidth_eq, ← wr, perform_wr_of_idle h, applyWrite_hostBuffer hr]

/-- R122: wrbytes writes the word of the first four bytes, then the rest. -/
theorem wrbytes_eq_cons {h : List Byte} (hlen : 4 ≤ h.length) (base : Nat) :
    wrbytes base h = .write .word (BitVec.ofNat 12 base) (ofLanes h) :: wrbytes (base + 4) (h.drop 4) := by
  have hn : (h.length + 3) / 4 = ((h.drop 4).length + 3) / 4 + 1 := by
    rw [List.length_drop]; omega
  rw [wrbytes, hn, List.range_succ_eq_map, List.map_cons, List.map_map, wrbytes]
  refine congrArg _ (List.map_congr_left fun j _ => ?_)
  have hoff : base + 4 * (j + 1) = base + 4 + 4 * j := by omega
  rw [Function.comp, hoff, List.drop_drop, Nat.mul_succ, Nat.add_comm (4 * j)]

/-- R122: wrbytes of whole words to the keys while BUSY = 0 writes its string to memory. -/
theorem foldl_perform_wrbytes {s : State} (hidle : s.status.busy = false) {n base : Nat} {h : List Byte}
    (hlen : h.length = 4 * n) (hmod : base % 4 = 0) (hlo : 0x040 ≤ base) (hhi : base + h.length ≤ 0x080) :
    (wrbytes base h).foldl State.perform s =
      { s with
        mem := s.mem.writeBytes base h
        responses := s.responses ++ List.replicate (wrbytes base h).length .written } := by
  induction n generalizing s base h with
  | zero =>
    obtain rfl := List.eq_nil_of_length_eq_zero hlen
    simp [wrbytes, Memory.writeBytes]
  | succ n ih =>
    have hfour : 4 ≤ h.length := by omega
    have hdrop : (h.drop 4).length = 4 * n := by rw [List.length_drop]; omega
    rw [wrbytes_eq_cons hfour, List.foldl_cons, perform_write_keyWord hidle hmod hlo (by omega),
      ih (by exact hidle) hdrop (by omega) (by omega) (by omega), writeBytes_eq_writeWord hfour]
    simp [List.replicate_succ]

/-- R313: the state the boot writes leave. -/
def State.booted (s : State) (l : Nat) (ke km : List Byte) (v : BitVec 64) (useIrq : Bool) : State :=
  { s with
    mem := (s.mem.writeBytes Config.kencBase ke).writeBytes Config.kmacBase km
    kcfg := { kencLen := BitVec.ofNat 6 l, kmacLen := BitVec.ofNat 6 l }
    sscLo := v.extractLsb' 0 32
    sscHi := v.extractLsb' 32 32
    ctrl := { ie := useIrq || s.ctrl.ie }
    responses := s.responses ++ List.replicate (boot l ke km v useIrq).length .written }

/-- R37, R122: the KCFG word of setkeys holds the one length twice. -/
theorem kcfg_ofWord_setkeys {l : Nat} (hl : l = 16 ∨ l = 24 ∨ l = 32) :
    Kcfg.ofWord (BitVec.ofNat 32 (l ||| l <<< 8)) = { kencLen := BitVec.ofNat 6 l, kmacLen := BitVec.ofNat 6 l } := by
  obtain rfl | rfl | rfl := hl <;> decide

/-- R37, R46, R47: setkeys while BUSY = 0. -/
theorem foldl_perform_setkeys {s : State} (hidle : s.status.busy = false) {l : Nat} {ke km : List Byte}
    (hl : l = 16 ∨ l = 24 ∨ l = 32) (hke : ke.length = l) (hkm : km.length = l) :
    (setkeys l ke km).foldl State.perform s =
      { s with
        mem := (s.mem.writeBytes Config.kencBase ke).writeBytes Config.kmacBase km
        kcfg := { kencLen := BitVec.ofNat 6 l, kmacLen := BitVec.ofNat 6 l }
        responses := s.responses ++ List.replicate (setkeys l ke km).length .written } := by
  have hwords : l = 4 * (l / 4) := by omega
  rw [setkeys, List.foldl_append, List.foldl_append,
    foldl_perform_wrbytes hidle (hke.trans hwords) rfl (by decide) (by rw [Config.kencBase]; omega),
    foldl_perform_wrbytes (by exact hidle) (hkm.trans hwords) rfl (by decide) (by rw [Config.kmacBase]; omega),
    List.foldl_cons, List.foldl_nil, perform_wr_of_idle (by exact hidle), State.applyWrite, kcfg_ofWord_setkeys hl]
  simp [← List.replicate_succ', Nat.add_assoc]

/-- R313: the boot writes while BUSY = 0. -/
theorem foldl_perform_boot {s : State} (hidle : s.status.busy = false) {l : Nat} {ke km : List Byte} (v : BitVec 64)
    (useIrq : Bool) (hl : l = 16 ∨ l = 24 ∨ l = 32) (hke : ke.length = l) (hkm : km.length = l) :
    (boot l ke km v useIrq).foldl State.perform s = s.booted l ke km v useIrq := by
  rw [boot, List.foldl_append, List.foldl_append, foldl_perform_setkeys hidle hl hke hkm, setssc, List.foldl_cons,
    perform_wr_of_idle (by exact hidle), List.foldl_cons, perform_wr_of_idle (by exact hidle), List.foldl_nil]
  cases useIrq with
  | false => simp [State.applyWrite, State.booted, boot, setssc, List.replicate_succ']
  | true =>
    rw [if_pos rfl, List.foldl_cons, List.foldl_nil, perform_wr_of_idle (by exact hidle),
      applyWrite_ctrl_ie (by decide)]
    simp [State.applyWrite, State.booted, boot, setssc, List.replicate_succ']

/-- Settles O55: what the state after the boot writes holds is what they were given. -/
theorem bootWritesConfigureTheSession : Obligations.BootWritesConfigureTheSession := by
  intro s l ke km v useIrq hidle hl hke hkm
  rw [foldl_perform_boot hidle v useIrq hl hke hkm]
  have hlen : (BitVec.ofNat 6 l).toNat = l := by rw [BitVec.toNat_ofNat]; omega
  refine ⟨?_, ?_, ⟨?_, rfl⟩, BitVec.extractLsb'_append_extractLsb' (w := 32), rfl, rfl, rfl⟩
  · simp only [State.kenc, State.booted, hlen]
    rw [readBytes_writeBytes_of_disjoint _ (by rw [Config.kencBase, Config.kmacBase]; omega), ← hke,
      readBytes_writeBytes_same]
  · simp only [State.kmac, State.booted, hlen]
    rw [← hkm, readBytes_writeBytes_same]
  · rwa [State.booted, hlen]

/-! ### The outputs between completions -/

/-- R321: the outputs of a command: OUT_LEN, SW, RESULT and the bytes of OUT. -/
def State.outputs (s : State) : BitVec 9 × BitVec 16 × Result × List Byte :=
  (s.outLen, s.sw, s.result, s.mem.readBytes Config.outBase Config.outCap)

/-- States whose outputs differ in a field or in a byte of OUT have different outputs. -/
theorem outputs_ne {s t : State}
    (h : t.outLen ≠ s.outLen ∨ t.sw ≠ s.sw ∨ t.result ≠ s.result ∨
      ∃ a, Config.outBase ≤ a ∧ a < Config.outBase + Config.outCap ∧ t.mem.read a ≠ s.mem.read a) :
    t.outputs ≠ s.outputs := by
  intro heq
  simp only [State.outputs, Prod.mk.injEq] at heq
  obtain ⟨hlen, hsw, hres, hmem⟩ := heq
  rcases h with h | h | h | ⟨a, hlo, hhi, h⟩
  · exact h hlen
  · exact h hsw
  · exact h hres
  · have hi : a - Config.outBase < Config.outCap := by omega
    have hbyte := congrArg (byteAt · (a - Config.outBase)) hmem
    simp only [byteAt_readBytes _ _ _ _ hi, Nat.add_sub_cancel' hlo] at hbyte
    exact h hbyte

/-- R46 to R48: a write to an input buffer word leaves the outputs alone. -/
theorem outputs_applyWrite_hostBuffer {r : Reg} (hr : HostBuffer r) (s : State) (v : Word) :
    (s.applyWrite r v).outputs = s.outputs := by
  have hoff := hostBuffer_offset hr
  have hout : (s.mem.writeWord (offsetOf r).toNat v).readBytes Config.outBase Config.outCap =
      s.mem.readBytes Config.outBase Config.outCap :=
    readBytes_writeBytes_of_disjoint _ (by rw [length_lanes, Config.outBase]; omega)
  rw [applyWrite_hostBuffer hr, State.outputs, hout, State.outputs]

/-- R274, R310: a register write other than an issue and a reset leaves the outputs alone. -/
theorem outputs_applyWrite {r : Reg} {v : Word} (hcmd : r ≠ .cmd) (hreset : r = .ctrl → srst v = false) (s : State) :
    (s.applyWrite r v).outputs = s.outputs := by
  cases r with
  | cmd => exact absurd rfl hcmd
  | ctrl => rw [applyWrite_ctrl_ie (hreset rfl)]; rfl
  | inBuf j => exact outputs_applyWrite_hostBuffer (.inl ⟨j, rfl⟩) s v
  | kenc j => exact outputs_applyWrite_hostBuffer (.inr (.inl ⟨j, rfl⟩)) s v
  | kmac j => exact outputs_applyWrite_hostBuffer (.inr (.inr ⟨j, rfl⟩)) s v
  | _ => rfl

/-- R274, R310, R311: the inputs that end the life of the outputs: a reset, and a CMD write while BUSY = 0. -/
def EndsOutputs (s : State) (i : Input) : Prop := isReset i = true ∨ (s.status.busy = false ∧ ∃ v, i = wr .cmd v)

/-- R86, R321: every other input leaves the outputs alone. -/
theorem outputs_perform {s : State} {i : Input} (h : ¬EndsOutputs s i) : (s.perform i).outputs = s.outputs := by
  rcases perform_cases s i with ⟨r, hp⟩ | ⟨r, v, off, rfl, hoff, hp⟩ | ⟨rfl, -⟩
  · rw [hp]; rfl
  · obtain rfl := (regAt_eq_some_iff off r).mp hoff
    rcases writeReg_cases s r v with ⟨-, hw⟩ | ⟨hg, hw⟩ <;> rw [hp, hw]
    · rfl
    · have hcmd : r ≠ .cmd := by
        rintro rfl; exact h (.inr ⟨idle_of_gateOpen hg (by decide) (by decide), v, rfl⟩)
      have hreset : r = .ctrl → srst v = false := by
        rintro rfl; rw [← isReset_wr_ctrl]; exact Bool.eq_false_of_not_eq_true fun hi => h (.inl hi)
      exact outputs_applyWrite hcmd hreset s
  · exact absurd (.inl rfl) h

/-- Settles O59: a step that is no completion is idle or performs an input, so where an output changed, the input is one that
ends their life. -/
theorem outputsLastUntilIssueOrReset : Obligations.OutputsLastUntilIssueOrReset := by
  intro s t hstep hdue hchange
  have hne : t.outputs ≠ s.outputs := outputs_ne hchange
  rcases step_cases hstep with ⟨hd, -⟩ | ⟨-, -, rfl⟩ | ⟨-, i, rest, hp, rfl⟩
  · rw [hdue] at hd; cases hd
  · exact absurd rfl hne
  · exact ⟨i, rest, hp, not_not.mp fun hi => hne (outputs_perform (s := s.takeInput rest) hi)⟩

end Sys2Proof.Machine
